-- ==== Sys2Proof/Word.lean ====
section
/-!
DEFINITION. Word.lean: the words the block is made of and the closed lists of names the spec gives:
the 4-bit op selector (R60), the agents (R20), the ops (R60), the input ports (R21), the two interrupt
sources (R132), the three numbers that choose a SEQ arm (R62) and the three channel registers (R31).
-/
namespace Sys2Proof

/-- `OP[3:0]`, the 4-bit code that selects an op (R60). -/
abbrev OpCode := BitVec 4

/-- The agents of R20's table, one each. (R20's sentence says six; its table names these seven, BTN_M and
BTN_C standing in one row.) -/
inductive Agent where
  | host
  | seq
  | tmr
  | btnM
  | btnC
  | updM
  | updC
  deriving DecidableEq, Repr

/-- The ops of the block, the labels of its transition system (R11, R60). -/
inductive Op where
  | rst
  | seq
  | tmr
  | edm
  | edc
  | svm
  | svc
  deriving DecidableEq, Repr

/-- The input ports of R21. -/
inductive Input where
  | rst
  | maxHw
  | btnMode
  | btnColor
  | tick
  deriving DecidableEq, Repr

/-- The block's two interrupt sources, the rising edges on the two button inputs (R132). -/
inductive Source where
  | mode
  | color
  deriving DecidableEq, Repr

/-- What selects an arm of SEQ: PHASE, MODE and ENTRY (R62, R110). -/
structure Control where
  phase : BitVec 2
  mode  : BitVec 2
  entry : BitVec 2
  deriving DecidableEq, Repr

/-- The three channel duty registers CH[0], CH[1], CH[2]: red, green, blue (R31, R67). -/
structure Channels (w : Nat) where
  r : BitVec w
  g : BitVec w
  b : BitVec w
  deriving DecidableEq, Repr

end Sys2Proof
end

