-- ==== Sys2Proof/Config.lean ====
section
/-!
DEFINITION. Config.lean: the parameters of R6, which a model of the block takes as arguments, the values
this hardware gives them, and the model's one free value, the schedule's choice.
-/
namespace Sys2Proof

/-- The parameters of R6, one field each (TICK_PERIOD is left out: R6 and R158 say that no rule depends on it).
A maximum above 2^W − 1 cannot be written down, so R6's constraint on MAX_HW holds by its type. -/
structure Params where
  /-- `W`, the width in bits of a duty word. -/
  dutyWidth  : Nat
  /-- `MAX_HW`, the maximum duty the PWM platform reports. -/
  maxHw      : BitVec dutyWidth
  /-- `DUTY_DIV4`, whether the latched maximum is MAX_HW divided by 4. -/
  dutyDiv4   : Bool
  /-- `DWELL_TICKS`, the ConstantCycling dwell in timer strobes. -/
  dwellTicks : Nat
  /-- `DWELL_WIDTH`, the width in bits of the DWELL counter. -/
  dwellWidth : Nat
  deriving DecidableEq, Repr

/-- The constraints of R6: W ≥ 1, DWELL_TICKS ≥ 1 and 2^DWELL_WIDTH − 1 ≥ DWELL_TICKS. -/
def Params.wf (p : Params) : Bool :=
  decide (1 ≤ p.dutyWidth) && decide (1 ≤ p.dwellTicks) && decide (p.dwellTicks < 2 ^ p.dwellWidth)

/-- What stands behind `W`, which R6 and decision D6 leave OPEN: W is one more than a number nothing is
known of, so that W ≥ 1. DESIGN CHOICE, safe (log entry 1). -/
opaque Config.dutyWidthPred : Nat

/-- `W` of this hardware: OPEN (R6, D6), known only to be at least 1. -/
def Config.dutyWidth : Nat := Config.dutyWidthPred + 1

/-- `MAX_HW` of this hardware: OPEN (R6, D7), any W-bit number. DESIGN CHOICE, safe (log entry 1). -/
opaque Config.maxHw : BitVec Config.dutyWidth

/-- `DUTY_DIV4` of this hardware: false, the canonical variant (R2, R6). -/
def Config.dutyDiv4 : Bool := false

/-- `DWELL_TICKS` of this hardware: R6's default, 10000 strobes (D12). -/
def Config.dwellTicks : Nat := 10000

/-- `DWELL_WIDTH` of this hardware: the smallest width that holds DWELL_TICKS (R6, D33). -/
def Config.dwellWidth : Nat := 14

/-- The parameters of this hardware (R6's last column). -/
def Config.params : Params where
  dutyWidth  := Config.dutyWidth
  maxHw      := Config.maxHw
  dutyDiv4   := Config.dutyDiv4
  dwellTicks := Config.dwellTicks
  dwellWidth := Config.dwellWidth

/-- FREE VALUE: the choice of the next op among those enabled, where no trace says it. R11 and R135: any
enabled op may be the next one; the choice is free. The number it is applied to counts the ops taken, so
each choice is a fresh one. No body: nothing can be proved of its values. DESIGN CHOICE, safe (log entry 2). -/
opaque Config.freeChoice : Nat → Nat

end Sys2Proof
end

