-- ==== Sys2Proof/Syntax.lean ====
section
/-!
DEFINITION. Syntax.lean: the rows of spec/opcode_table.json, one constructor each. No op has an operand
field (R68); a reserved code of the row 1xxx carries the code itself, because R130 records it.
-/
namespace Sys2Proof

/-- The rows of the opcode table. The seven SEQ rows share the code 0010; the state selects among them (R62). -/
inductive Instr where
  /-- RST, code 0001 (R150). -/
  | rst
  /-- SEQ.DISPATCH, code 0010 (R111). -/
  | seqDispatch
  /-- SEQ.EXIT, code 0010 (R112). -/
  | seqExit
  /-- SEQ.TICK_CC, code 0010 (R116). -/
  | seqTickCc
  /-- SEQ.TICK_CS, code 0010 (R115). -/
  | seqTickCs
  /-- SEQ.TICK_PC, code 0010 (R114). -/
  | seqTickPc
  /-- SEQ.TICK_PS, code 0010 (R113). -/
  | seqTickPs
  /-- SEQ.BADPHASE, code 0010 (R117). -/
  | seqBadphase
  /-- TMR, code 0011 (R118). -/
  | tmr
  /-- EDM, code 0100 (R83). -/
  | edm
  /-- EDC, code 0101 (R84). -/
  | edc
  /-- SVM, code 0110 (R85). -/
  | svm
  /-- SVC, code 0111 (R86). -/
  | svc
  /-- The reserved code 0000 (R61). -/
  | reservedZero
  /-- A reserved code 1xxx, 1000 to 1111 (R61), with the code that was met. -/
  | reservedHigh (code : OpCode)
  deriving DecidableEq, Repr

end Sys2Proof
end

