-- ==== Sys2Proof/WellFormed.lean ====
section
/-!
DEFINITION. WellFormed.lean: which terms of Instr spell a row of the opcode table.
-/
namespace Sys2Proof

/-- The one check a term of Instr can fail: a reserved code of the row 1xxx has bit 3 set (R61). No other
row has an operand to check (R68). -/
def Instr.wf : Instr → Bool
  | .rst => true
  | .seqDispatch => true
  | .seqExit => true
  | .seqTickCc => true
  | .seqTickCs => true
  | .seqTickPc => true
  | .seqTickPs => true
  | .seqBadphase => true
  | .tmr => true
  | .edm => true
  | .edc => true
  | .svm => true
  | .svc => true
  | .reservedZero => true
  | .reservedHigh code => code.getLsbD 3

end Sys2Proof
end

