-- ==== Sys2Proof/Decode.lean ====
section
/-!
DEFINITION. Decode.lean: the op codes (R60, R61), the selection of a SEQ arm (R62), the field encodings
(R63 to R67) and the encoding of a trace (R71); the decoder first, the encoder after it.
-/
namespace Sys2Proof

/-! ## Field encodings (R63, R65, R67) -/

/-- MODE = 0 (R63). -/
@[simp] abbrev Mode.constantCycling : BitVec 2 := 0#2
/-- MODE = 1 (R63). -/
@[simp] abbrev Mode.constantSingle : BitVec 2 := 1#2
/-- MODE = 2 (R63). -/
@[simp] abbrev Mode.pulseCycling : BitVec 2 := 2#2
/-- MODE = 3 (R63). -/
@[simp] abbrev Mode.pulseSingle : BitVec 2 := 3#2

/-- The pulse modes, PulseCycling and PulseSingle (R12, R63). -/
def Mode.isPulse (m : BitVec 2) : Bool := m == Mode.pulseCycling || m == Mode.pulseSingle

/-- The cycling modes, ConstantCycling and PulseCycling (R12, R63). -/
def Mode.isCycling (m : BitVec 2) : Bool := m == Mode.constantCycling || m == Mode.pulseCycling

/-- PHASE = 0 (R65). -/
@[simp] abbrev Phase.dispatch : BitVec 2 := 0#2
/-- PHASE = 1 (R65). -/
@[simp] abbrev Phase.guard : BitVec 2 := 1#2
/-- PHASE = 2 (R65). -/
@[simp] abbrev Phase.wait : BitVec 2 := 2#2
/-- PHASE = 3, unused: no op writes it (R65). -/
@[simp] abbrev Phase.unused : BitVec 2 := 3#2

/-- Channel register CH[i]: 0 is red, 1 is green, 2 is blue (R67). -/
def Channels.get {w : Nat} (c : Channels w) : Fin 3 → BitVec w
  | 0 => c.r
  | 1 => c.g
  | 2 => c.b

/-! ## The op selector (R60, R61) -/

/-- R60's table, the rows that are not reserved: each code with its op. -/
def opTable : List (OpCode × Op) :=
  [ (0b0001#4, .rst),
    (0b0010#4, .seq),
    (0b0011#4, .tmr),
    (0b0100#4, .edm),
    (0b0101#4, .edc),
    (0b0110#4, .svm),
    (0b0111#4, .svc) ]

/-- The op a code selects; none for a reserved code (R60, R61). -/
def opOf (code : OpCode) : Option Op := (opTable.find? fun row => row.1 == code).map Prod.snd

/-- The agent an op belongs to (R20, R60). -/
def Op.agent : Op → Agent
  | .rst => .host
  | .seq => .seq
  | .tmr => .tmr
  | .edm => .btnM
  | .edc => .btnC
  | .svm => .updM
  | .svc => .updC

/-- The op an input port's event causes; `max_hw` causes none, DISPATCH samples it (R21). -/
def Input.op : Input → Option Op
  | .rst => some .rst
  | .maxHw => none
  | .btnMode => some .edm
  | .btnColor => some .edc
  | .tick => some .tmr

/-! ## The decoder -/

/-- The arm of SEQ that PHASE, MODE and ENTRY select: R62's conditions in R62's order, the first that holds
deciding. In WAIT the op is held: no arm, and the op's name. -/
def seqArm (c : Control) : Except Op Instr :=
  if c.phase = Phase.dispatch then .ok .seqDispatch
  else if c.phase = Phase.guard ∧ c.mode ≠ c.entry then .ok .seqExit
  else if c.phase = Phase.guard ∧ c.entry = Mode.constantCycling then .ok .seqTickCc
  else if c.phase = Phase.guard ∧ c.entry = Mode.constantSingle then .ok .seqTickCs
  else if c.phase = Phase.guard ∧ c.entry = Mode.pulseCycling then .ok .seqTickPc
  else if c.phase = Phase.guard then .ok .seqTickPs
  else if c.phase = Phase.wait then .error .seq
  else .ok .seqBadphase

/-- The row of the opcode table that a code selects in a control state (R60 to R62), total on every code.
A reserved code decodes to its own row, by name. `.error .seq`: SEQ is held, because PHASE = WAIT. -/
def decode (code : OpCode) (c : Control) : Except Op Instr :=
  match opOf code with
  | some .rst => .ok .rst
  | some .seq => seqArm c
  | some .tmr => .ok .tmr
  | some .edm => .ok .edm
  | some .edc => .ok .edc
  | some .svm => .ok .svm
  | some .svc => .ok .svc
  | none => if code = 0#4 then .ok .reservedZero else .ok (.reservedHigh code)

/-- The control state RST leaves: PHASE = DISPATCH, MODE = 0, ENTRY = 0 (R150). -/
def Control.afterReset : Control where
  phase := Phase.dispatch
  mode  := Mode.constantCycling
  entry := Mode.constantCycling

/-- The code in a table word: `OP[3:0]`, the word's bits 3 to 0 (R60), every bit from `nbits` up being 0. -/
def codeOfWord (nbits w : Nat) : OpCode := BitVec.ofNat 4 (w % 2 ^ nbits)

/-- What the decoder reads from a table word in the control state that RST leaves. A code alone does not
select an arm of SEQ (R62), so some control state must be named; in this one, 0010 is SEQ.DISPATCH.
DESIGN CHOICE (log entry 5). -/
def decodeTableWord (nbits w : Nat) : Option Instr :=
  match decode (codeOfWord nbits w) Control.afterReset with
  | .ok i => some i
  | .error _ => none

/-! ## The encoder -/

/-- The code of an op (R60). -/
def Op.code : Op → OpCode
  | .rst => 0b0001#4
  | .seq => 0b0010#4
  | .tmr => 0b0011#4
  | .edm => 0b0100#4
  | .edc => 0b0101#4
  | .svm => 0b0110#4
  | .svc => 0b0111#4

/-- The code of a table row (R60, R61). -/
def encode : Instr → OpCode
  | .rst => 0b0001#4
  | .seqDispatch => 0b0010#4
  | .seqExit => 0b0010#4
  | .seqTickCc => 0b0010#4
  | .seqTickCs => 0b0010#4
  | .seqTickPc => 0b0010#4
  | .seqTickPs => 0b0010#4
  | .seqBadphase => 0b0010#4
  | .tmr => 0b0011#4
  | .edm => 0b0100#4
  | .edc => 0b0101#4
  | .svm => 0b0110#4
  | .svc => 0b0111#4
  | .reservedZero => 0b0000#4
  | .reservedHigh code => code

/-- The condition of a SEQ row of the table ("enabled_when" of spec/opcode_table.json, R62). A row of another
op is selected by its code alone. -/
def Instr.selectedBy (c : Control) : Instr → Bool
  | .rst => true
  | .seqDispatch => c.phase == 0#2
  | .seqExit => c.phase == 1#2 && c.mode != c.entry
  | .seqTickCc => c.phase == 1#2 && c.mode == c.entry && c.entry == 0#2
  | .seqTickCs => c.phase == 1#2 && c.mode == c.entry && c.entry == 1#2
  | .seqTickPc => c.phase == 1#2 && c.mode == c.entry && c.entry == 2#2
  | .seqTickPs => c.phase == 1#2 && c.mode == c.entry && c.entry == 3#2
  | .seqBadphase => c.phase == 3#2
  | .tmr => true
  | .edm => true
  | .edc => true
  | .svm => true
  | .svc => true
  | .reservedZero => true
  | .reservedHigh _ => true

/-- The op a table row belongs to; none for a reserved row (R60, R62). -/
def Instr.op : Instr → Option Op
  | .rst => some .rst
  | .seqDispatch => some .seq
  | .seqExit => some .seq
  | .seqTickCc => some .seq
  | .seqTickCs => some .seq
  | .seqTickPc => some .seq
  | .seqTickPs => some .seq
  | .seqBadphase => some .seq
  | .tmr => some .tmr
  | .edm => some .edm
  | .edc => some .edc
  | .svm => some .svm
  | .svc => some .svc
  | .reservedZero => none
  | .reservedHigh _ => none

/-! ## The encoding of a trace (R71) -/

/-- The sixteen hexadecimal digits with the codes they write. The spec's own examples use capital letters
(vector V-ENC); small letters are taken too. DESIGN CHOICE, safe (log entry 11). -/
def hexTable : List (Char × OpCode) :=
  [ ('0', 0x0#4), ('1', 0x1#4), ('2', 0x2#4), ('3', 0x3#4), ('4', 0x4#4), ('5', 0x5#4), ('6', 0x6#4), ('7', 0x7#4),
    ('8', 0x8#4), ('9', 0x9#4), ('A', 0xA#4), ('B', 0xB#4), ('C', 0xC#4), ('D', 0xD#4), ('E', 0xE#4), ('F', 0xF#4),
    ('a', 0xA#4), ('b', 0xB#4), ('c', 0xC#4), ('d', 0xD#4), ('e', 0xE#4), ('f', 0xF#4) ]

/-- The code one hexadecimal digit writes (R71). -/
def codeOfDigit (d : Char) : Option OpCode := (hexTable.find? fun row => row.1 == d).map Prod.snd

/-- The digit that writes a code, a capital where it is a letter (R71). -/
def digitOfCode (code : OpCode) : Char := ((hexTable.find? fun row => row.2 == code).map Prod.fst).getD '0'

/-- The codes of a hex trace: one digit an op, the first op leftmost (R71); none where a character is no digit. -/
def codesOfHex (digits : List Char) : Option (List OpCode) := digits.mapM codeOfDigit

/-- The hex trace of a sequence of codes (R71). -/
def hexOfCodes (codes : List OpCode) : List Char := codes.map digitOfCode

/-- What a decoder finds in a trace, digit by digit, `n` digits of it being read already: the op, or for a
reserved code its position and the code (R61, R130; positions count from 1, vector V-ENC). -/
def decodeTrace (n : Nat) : List OpCode → List (Except (Nat × OpCode) Op)
  | [] => []
  | code :: rest =>
    (match opOf code with
      | some op => .ok op
      | none => .error (n + 1, code)) :: decodeTrace (n + 1) rest

end Sys2Proof
end

