-- ==== Sys2Proof/Machine/Operands.lean ====
section
/-!
DEFINITION. Machine/Operands.lean: the pure functions the ops apply to their operands: the advances of MODE and
COLOR (R80 to R82), the scaled maximum (R90), the channel driver (R100, R101) and the duty step (R91, R92), with
the constants of R68.
-/
namespace Sys2Proof.Machine

/-! ## Advance functions (R80 to R82) -/

/-- ADV_MODE: (m + 1) mod 4 (R80). -/
def advMode (m : BitVec 2) : BitVec 2 := m + 1#2

/-- ADV_BTN: (c + 1) mod 8 (R81). -/
def advBtn (c : BitVec 3) : BitVec 3 := c + 1#3

/-- ADV_AUTO: (c + 1) mod 8, with 1 in place of 0 (R82). -/
def advAuto (c : BitVec 3) : BitVec 3 := if c + 1#3 = 0#3 then 1#3 else c + 1#3

/-! ## Duty generator (R90 to R92) -/

/-- SCALE: the platform's maximum, divided by 4 and rounded down where DUTY_DIV4 is true (R90). -/
def scale {w : Nat} (div4 : Bool) (h : BitVec w) : BitVec w := if div4 then h >>> 2 else h

/-- The duty d' of DUTYSTEP(d, t, m), modulo 2^W (R91). A maximum of 0 holds it (R95). -/
def dutyNext {w : Nat} (d : BitVec w) (t : Bool) (m : BitVec w) : BitVec w :=
  if m = 0#w then d else if t then d + 1#w else d - 1#w

/-- The pair of DUTYSTEP(d, t, m): the duty and the direction after one step (R91). The direction turns where the
new duty is the bound it moves towards. -/
def dutyStep {w : Nat} (d : BitVec w) (t : Bool) (m : BitVec w) : BitVec w × Bool :=
  (dutyNext d t m,
    if m = 0#w then t
    else if t then !decide (dutyNext d t m = m)
    else decide (dutyNext d t m = 0#w))

/-- RETURNED(d, t, m): this step is the one on which the down-ramp reaches 0 (R92). -/
def returned {w : Nat} (d : BitVec w) (t : Bool) (m : BitVec w) : Bool :=
  decide (1 ≤ m.toNat) && !t && decide (d.toNat = 1)

/-! ## Channel driver (R100, R101) -/

/-- One lane of DRIVE: v where the lane's mask bit is 1, the minimum 0 where it is 0 (R100). -/
def driveLane {w : Nat} (c : BitVec 3) (v : BitVec w) (i : Nat) : BitVec w := if c.getLsbD i then v else 0#w

/-- DRIVE(c, v): what all three channel registers hold after it (R100). -/
def drive {w : Nat} (c : BitVec 3) (v : BitVec w) : Channels w where
  r := driveLane c v 0
  g := driveLane c v 1
  b := driveLane c v 2

/-- ZERO_ALL: what all three channel registers hold after it (R101). -/
def zeroAll (w : Nat) : Channels w where
  r := 0#w
  g := 0#w
  b := 0#w

end Sys2Proof.Machine
end

