-- ==== Sys2Proof/Machine/State.lean ====
section
/-!
DEFINITION. Machine/State.lean: the outcomes a step can stop with, the state of the block (R22 to R32) with
the parameters it is built for (R6), and its state after reset (R150).
-/
namespace Sys2Proof.Machine

/-- Why a step has no next state. Neither is a fault of the spec's: those set FAULTED and the block goes on
(R10, R32, R117). -/
inductive Fault where
  /-- The op taken is not enabled: SEQ in WAIT, SVM with PEND_M = 0, SVC with PEND_C = 0 (R60, R130). The op has no
  step, so a trace that holds it is stuck there (R69), at position `pos`. Raised by the step where the decoder
  answers that SEQ is held, and by execSvm and execSvc. Safe: the spec gives the op no effect here. -/
  | held (op : Op) (pos : Nat)
  /-- An arm of SEQ was asked to run where R62 selects another one or none. Raised by the SEQ arms' meanings, for
  states in which the decoder never selects them; no step answers it. Safe. -/
  | notThisArm (pos : Nat)
  deriving DecidableEq, Repr

/-- Why an instruction has no meaning in the model. -/
inductive Refusal where
  /-- The instruction is not modelled yet. Raised by no arm of exec: every row has its meaning. Safe. -/
  | notModelled (mnemonic : String)
  deriving DecidableEq, Repr

/-- What refuse(ReservedOp) records: the code and its position in the trace (R130). -/
structure RefusedCode where
  pos  : Nat
  code : OpCode
  deriving DecidableEq, Repr

/-- The state of the block: its parameters, the registers of R22 to R31, the two marks of R32 with what R130
records of a refusal, and the model's own two fields for the schedule, `trace` and `pos` (log entries 2 and 3). -/
structure State where
  /-- The parameters of R6: arguments of the step relation, not registers. No op changes them (R39; log entry 1). -/
  params   : Params
  /-- MODE (R22). -/
  mode     : BitVec 2
  /-- COLOR (R23). -/
  color    : BitVec 3
  /-- PEND_M (R24): true is 1, an edge is pending (R66). -/
  pendM    : Bool
  /-- PEND_C (R24). -/
  pendC    : Bool
  /-- PHASE (R25). -/
  phase    : BitVec 2
  /-- ENTRY (R26). -/
  entry    : BitVec 2
  /-- DUTY (R27). -/
  duty     : BitVec params.dutyWidth
  /-- TO_ADD (R28): true is 1, increasing (R66). -/
  toAdd    : Bool
  /-- MAXL (R29). -/
  maxl     : BitVec params.dutyWidth
  /-- DWELL (R30). -/
  dwell    : BitVec params.dwellWidth
  /-- CH[0], CH[1], CH[2] (R31). -/
  ch       : Channels params.dutyWidth
  /-- FAULTED (R32). -/
  faulted  : Bool
  /-- REFUSED (R32). -/
  refused  : Bool
  /-- The code and the position of every refusal, oldest first (R130). -/
  refusals : List RefusedCode
  /-- The model's own: the codes of the trace that are still to be taken (R69, R71), the next one first. Where it is
  empty the schedule is free (R11). -/
  trace    : List OpCode
  /-- The model's own: how many ops the step has taken, which is the position in the trace of the op in hand. It
  is also the argument of the free choice. No op's effect on a register depends on it. -/
  pos      : Nat
  deriving DecidableEq, Repr

/-- The output ports of R33. -/
structure Outputs (w : Nat) where
  chR    : BitVec w
  chG    : BitVec w
  chB    : BitVec w
  modeO  : BitVec 2
  colorO : BitVec 3
  deriving DecidableEq, Repr

/-- The state right after reset of a block with the parameters `p`: R150's values, and FAULTED = REFUSED = 0
(R153). The trace is empty and no op has been taken: DESIGN CHOICE, safe (log entry 3). -/
def State.resetWith (p : Params) : State where
  params   := p
  mode     := 0#2
  color    := 1#3
  pendM    := false
  pendC    := false
  phase    := Phase.dispatch
  entry    := 0#2
  duty     := 0#p.dutyWidth
  toAdd    := true
  maxl     := 0#p.dutyWidth
  dwell    := 0#p.dwellWidth
  ch       := { r := 0#p.dutyWidth, g := 0#p.dutyWidth, b := 0#p.dutyWidth }
  faulted  := false
  refused  := false
  refusals := []
  trace    := []
  pos      := 0

/-- The state right after reset (R150, R153) of the block with the parameters of this hardware. -/
def State.reset : State := State.resetWith Config.params

end Sys2Proof.Machine
end

