-- ==== Sys2Proof/Machine/Ops.lean ====
section
/-!
DEFINITION. Machine/Ops.lean: the named operations over the state: reading its ports and its control state, the
interrupts (R132 to R136), the two marks (R10, R32, R130), reset's effect (R150), and taking the next code of
the schedule (R11, R69).
-/
namespace Sys2Proof.Machine

/-! ## Reading the state -/

/-- The output ports (R33). -/
def State.outputs (s : State) : Outputs s.params.dutyWidth where
  chR    := s.ch.r
  chG    := s.ch.g
  chB    := s.ch.b
  modeO  := s.mode
  colorO := s.color

/-- PHASE, MODE and ENTRY, which select the arm of SEQ (R62). -/
def State.control (s : State) : Control where
  phase := s.phase
  mode  := s.mode
  entry := s.entry

/-- SCALE(MAX_HW) for this block's parameters (R90). -/
def State.scaledMax (s : State) : BitVec s.params.dutyWidth := scale s.params.dutyDiv4 s.params.maxHw

/-! ## Interrupts: pending, taking and clearing (R24, R83 to R86, R132 to R136) -/

/-- A source is pending while its latch is 1 (R134). -/
def State.pending (s : State) : Source → Bool
  | .mode => s.pendM
  | .color => s.pendC

/-- A rising edge sets its source's latch; where it is set already, the edge merges (R83, R84, R87, R134). -/
def State.latchEdge (s : State) : Source → State
  | .mode => { s with pendM := true }
  | .color => { s with pendC := true }

/-- Taking an interrupt: the source's action on its register, and its latch cleared, in one step. Nothing is saved,
no mode changes, there is no vector, and PHASE and ENTRY stay as they are (R85, R86, R132, R134, R136). There is
nothing to return from (R137). -/
def State.service (s : State) : Source → State
  | .mode => { s with mode := advMode s.mode, pendM := false }
  | .color => { s with color := advBtn s.color, pendC := false }

/-! ## The marks FAULTED and REFUSED (R10, R32, R130) -/

/-- fault(reason): FAULTED is set, for good; every register stays as it is (R10, R117). -/
def State.markFaulted (s : State) : State := { s with faulted := true }

/-- refuse(ReservedOp): REFUSED is set, the code and its position are recorded, and the state is otherwise
unchanged (R61, R130). -/
def State.markRefused (s : State) (code : OpCode) : State :=
  { s with refused := true, refusals := s.refusals ++ [{ pos := s.pos, code := code }] }

/-! ## Reset (R150) -/

/-- R150's pseudocode: every register takes its reset value. The marks are kept (R32), the parameters are fixed
(R39), and the schedule is not the block's. -/
def State.resetRegisters (s : State) : State :=
  { s with
    mode  := 0#2
    color := 1#3
    pendM := false
    pendC := false
    phase := Phase.dispatch
    entry := 0#2
    duty  := 0#s.params.dutyWidth
    toAdd := true
    maxl  := 0#s.params.dutyWidth
    dwell := 0#s.params.dwellWidth
    ch    := { r := 0#s.params.dutyWidth, g := 0#s.params.dutyWidth, b := 0#s.params.dutyWidth } }

/-! ## Enabling (R10, R60) -/

/-- enabled(op), the condition under which an op may be taken (R60). -/
def State.enabled (s : State) : Op → Bool
  | .rst => true
  | .seq => s.phase != Phase.wait
  | .tmr => true
  | .edm => true
  | .edc => true
  | .svm => s.pending .mode
  | .svc => s.pending .color

/-- The ops that may be taken next (R11). -/
def State.enabledOps (s : State) : List Op :=
  [Op.rst, Op.seq, Op.tmr, Op.edm, Op.edc, Op.svm, Op.svc].filter s.enabled

/-- An op's effect where the op is enabled; where it is not, it has no step (R10, R130). -/
def State.whenEnabled (s : State) (op : Op) (after : State) : Host.Outcome State Fault Refusal :=
  if s.enabled op then .next after else .fault (.held op s.pos)

/-- An arm's effect where the arm's condition holds (R62). -/
def State.onArm (s : State) (cond : Prop) [Decidable cond] (after : State) : Host.Outcome State Fault Refusal :=
  if cond then .next after else .fault (.notThisArm s.pos)

/-! ## The schedule: fetching the next code (R11, R69, R71) -/

/-- The op that is taken next where no trace says it: any of the enabled ones, by the free choice (R11, R135). RST,
TMR, EDM and EDC are always enabled, so the list is never empty. -/
def State.freeOp (s : State) : Op :=
  s.enabledOps.getD (Config.freeChoice s.pos % s.enabledOps.length) .tmr

/-- The code of the op that is taken next: the trace's first, or the free choice's where the trace is empty. -/
def State.nextCode (s : State) : OpCode :=
  match s.trace with
  | code :: _ => code
  | [] => s.freeOp.code

/-- Moving past the next code: the trace's rest remains, and one more op has been taken. -/
def State.advance (s : State) : State := { s with trace := s.trace.tail, pos := s.pos + 1 }

/-- Writing a table word where the next code is fetched: `OP[3:0]` of the word takes the place of the trace's first
code (R60, R71). -/
def State.placeCode (s : State) (nbits w : Nat) : State := { s with trace := codeOfWord nbits w :: s.trace.tail }

end Sys2Proof.Machine
end

