-- ==== Sys2Proof/Machine/Reset.lean ====
section
/-!
DEFINITION. Machine/Reset.lean: the meaning of RST (R150) and of the reserved codes (R61).
-/
namespace Sys2Proof.Machine

/-- RST: every register takes its reset value in one step, whatever the state (R150). -/
def execRst (s : State) : Host.Outcome State Fault Refusal := .next s.resetRegisters

/-- The code 0000: refuse(ReservedOp) (R61). -/
def execReservedZero (s : State) : Host.Outcome State Fault Refusal := .next (s.markRefused 0b0000#4)

/-- A code 1xxx: refuse(ReservedOp) (R61). -/
def execReservedHigh (code : OpCode) (s : State) : Host.Outcome State Fault Refusal := .next (s.markRefused code)

end Sys2Proof.Machine
end

