-- ==== Sys2Proof/Machine/Flags.lean ====
section
/-!
DEFINITION. Machine/Flags.lean: the flag and counter computations that read the state: the ramp's step with its
direction flag TO_ADD (R28, R91), the end of the down-ramp (R92), and the dwell counter (R30, R116, R118).
-/
namespace Sys2Proof.Machine

/-- DUTYSTEP(DUTY, TO_ADD, MAXL): the duty after the step and TO_ADD after it (R91). -/
def State.rampStep (s : State) : BitVec s.params.dutyWidth × Bool := dutyStep s.duty s.toAdd s.maxl

/-- RETURNED(DUTY, TO_ADD, MAXL) (R92). -/
def State.rampReturns (s : State) : Bool := returned s.duty s.toAdd s.maxl

/-- DWELL ≥ DWELL_TICKS, on unsigned values (R9, R116). -/
def State.dwellReached (s : State) : Bool := decide (s.params.dwellTicks ≤ s.dwell.toNat)

/-- min(DWELL + 1, DWELL_TICKS). The sum is taken without wrapping: the counter saturates and never wraps (R118,
D33), and DWELL_TICKS fits its width (R6). -/
def State.dwellTick (s : State) : BitVec s.params.dwellWidth :=
  BitVec.ofNat s.params.dwellWidth (min (s.dwell.toNat + 1) s.params.dwellTicks)

end Sys2Proof.Machine
end

