-- ==== Sys2Proof/Machine/Sequencer.lean ====
section
/-!
DEFINITION. Machine/Sequencer.lean: the meanings of the arms of SEQ (R111 to R117). Each arm is one atomic step
(R110) and states its own condition (R62).
-/
namespace Sys2Proof.Machine

/-- SEQ.DISPATCH: enters the handler for the current MODE; CH is not written (R111). -/
def execSeqDispatch (s : State) : Host.Outcome State Fault Refusal :=
  s.onArm (s.phase = Phase.dispatch)
    { s with
      entry := s.mode
      duty  := 0#s.params.dutyWidth
      toAdd := true
      maxl  := s.scaledMax
      dwell := 0#s.params.dwellWidth
      phase := Phase.guard }

/-- SEQ.EXIT: leaves the running handler; a pulse mode zeroes the channels, a constant mode keeps them (R112). -/
def execSeqExit (s : State) : Host.Outcome State Fault Refusal :=
  s.onArm (s.phase = Phase.guard ∧ s.mode ≠ s.entry)
    { s with
      ch    := if Mode.isPulse s.entry then zeroAll s.params.dutyWidth else s.ch
      phase := Phase.dispatch }

/-- SEQ.TICK_PS: one tick of PulseSingle (R113). -/
def execSeqTickPs (s : State) : Host.Outcome State Fault Refusal :=
  s.onArm (s.phase = Phase.guard ∧ s.mode = s.entry ∧ s.entry = Mode.pulseSingle)
    { s with
      duty  := s.rampStep.1
      toAdd := s.rampStep.2
      ch    := drive s.color s.rampStep.1
      phase := Phase.wait }

/-- COLOR after a tick of PulseCycling: the autonomous advance where the down-ramp returns to 0 (R114). -/
def State.colorAfterPulse (s : State) : BitVec 3 := if s.rampReturns then advAuto s.color else s.color

/-- SEQ.TICK_PC: one tick of PulseCycling; the advance comes before the drive (R114). -/
def execSeqTickPc (s : State) : Host.Outcome State Fault Refusal :=
  s.onArm (s.phase = Phase.guard ∧ s.mode = s.entry ∧ s.entry = Mode.pulseCycling)
    { s with
      duty  := s.rampStep.1
      toAdd := s.rampStep.2
      color := s.colorAfterPulse
      ch    := drive s.colorAfterPulse s.rampStep.1
      phase := Phase.wait }

/-- SEQ.TICK_CS: one poll of ConstantSingle; SEQ stays enabled (R115). -/
def execSeqTickCs (s : State) : Host.Outcome State Fault Refusal :=
  s.onArm (s.phase = Phase.guard ∧ s.mode = s.entry ∧ s.entry = Mode.constantSingle)
    { s with
      ch    := drive s.color s.maxl
      phase := Phase.guard }

/-- COLOR after a poll of ConstantCycling: the autonomous advance where the dwell is over (R116). -/
def State.colorAfterPoll (s : State) : BitVec 3 := if s.dwellReached then advAuto s.color else s.color

/-- SEQ.TICK_CC: one poll of ConstantCycling; the advance clears DWELL and comes before the drive (R116). -/
def execSeqTickCc (s : State) : Host.Outcome State Fault Refusal :=
  s.onArm (s.phase = Phase.guard ∧ s.mode = s.entry ∧ s.entry = Mode.constantCycling)
    { s with
      color := s.colorAfterPoll
      dwell := if s.dwellReached then 0#s.params.dwellWidth else s.dwell
      ch    := drive s.colorAfterPoll s.maxl
      phase := Phase.guard }

/-- SEQ with PHASE = 3: fault(BadPhase), FAULTED set and every register unchanged (R117). -/
def execSeqBadphase (s : State) : Host.Outcome State Fault Refusal :=
  s.onArm (s.phase = Phase.unused) s.markFaulted

end Sys2Proof.Machine
end

