-- ==== Sys2Proof/Machine/Timebase.lean ====
section
/-!
DEFINITION. Machine/Timebase.lean: the meaning of TMR, one strobe of the 1 ms timebase (R118).
-/
namespace Sys2Proof.Machine

/-- TMR: ends a WAIT; else counts the dwell while ConstantCycling runs; else has no effect (R118). -/
def execTmr (s : State) : Host.Outcome State Fault Refusal :=
  .next
    (if s.phase = Phase.wait then { s with phase := Phase.guard }
     else if s.phase = Phase.guard ∧ s.entry = Mode.constantCycling then { s with dwell := s.dwellTick }
     else s)

end Sys2Proof.Machine
end

