-- ==== Sys2Proof/Machine/Update.lean ====
section
/-!
DEFINITION. Machine/Update.lean: the meanings of the edge ops EDM and EDC (R83, R84) and of the update ops SVM and
SVC (R85, R86).
-/
namespace Sys2Proof.Machine

/-- EDM: a rising edge on the mode input sets PEND_M (R83). -/
def execEdm (s : State) : Host.Outcome State Fault Refusal := .next (s.latchEdge .mode)

/-- EDC: a rising edge on the colour input sets PEND_C (R84). -/
def execEdc (s : State) : Host.Outcome State Fault Refusal := .next (s.latchEdge .color)

/-- SVM: where PEND_M = 1, MODE advances and PEND_M is cleared; else no step (R85). -/
def execSvm (s : State) : Host.Outcome State Fault Refusal := s.whenEnabled .svm (s.service .mode)

/-- SVC: where PEND_C = 1, COLOR advances and PEND_C is cleared; else no step (R86). -/
def execSvc (s : State) : Host.Outcome State Fault Refusal := s.whenEnabled .svc (s.service .color)

end Sys2Proof.Machine
end

