-- ==== Sys2Proof/Machine/Dispatch.lean ====
section
/-!
DEFINITION. Machine/Dispatch.lean: the meaning of every row of the opcode table, one arm each.
-/
namespace Sys2Proof.Machine

/-- One instruction on one state. -/
def exec (i : Instr) (s : State) : Host.Outcome State Fault Refusal :=
  match i with
  | .rst => Sys2Proof.Machine.execRst s
  | .seqDispatch => Sys2Proof.Machine.execSeqDispatch s
  | .seqExit => Sys2Proof.Machine.execSeqExit s
  | .seqTickCc => Sys2Proof.Machine.execSeqTickCc s
  | .seqTickCs => Sys2Proof.Machine.execSeqTickCs s
  | .seqTickPc => Sys2Proof.Machine.execSeqTickPc s
  | .seqTickPs => Sys2Proof.Machine.execSeqTickPs s
  | .seqBadphase => Sys2Proof.Machine.execSeqBadphase s
  | .tmr => Sys2Proof.Machine.execTmr s
  | .edm => Sys2Proof.Machine.execEdm s
  | .edc => Sys2Proof.Machine.execEdc s
  | .svm => Sys2Proof.Machine.execSvm s
  | .svc => Sys2Proof.Machine.execSvc s
  | .reservedZero => Sys2Proof.Machine.execReservedZero s
  | .reservedHigh code => Sys2Proof.Machine.execReservedHigh code s

end Sys2Proof.Machine
end

