-- ==== Sys2Proof/Machine/Step.lean ====
section
/-!
DEFINITION. Machine/Step.lean: one step of the block: taking an op by its code (R10, R11, R60), and the machine's
step, which takes the next op of the schedule.
-/
namespace Sys2Proof.Machine

/-- Taking the op with a given code: the row that the code and the control state select, with its meaning. Where the
decoder answers that the op is held, there is no step (R10, R130). -/
def takeCode (code : OpCode) (s : State) : Host.Outcome State Fault Refusal :=
  match decode code s.control with
  | .ok i => exec i s
  | .error op => .fault (.held op s.pos)

/-- Taking an op: one labelled transition of the block (R11). -/
def take (op : Op) (s : State) : Host.Outcome State Fault Refusal := takeCode op.code s

/-- One step of the machine: the op whose code comes next is taken whole (R11), the schedule moving past its code
first. -/
def step (s : State) : Host.Outcome State Fault Refusal := takeCode s.nextCode s.advance

/-- The state with a table word placed where the step fetches its next code. -/
def State.withFetchWord (s : State) (nbits w : Nat) : State := s.placeCode nbits w

end Sys2Proof.Machine
end

