-- ==== Sys2Proof/Machine/Trace.lean ====
section
/-!
DEFINITION. Machine/Trace.lean: the spec's assembly language, the trace (R69), its pseudo-ops (R70) and its assembly
into op codes (R71), and running it from a stated start state, with the line it is stuck at (R69).
-/
namespace Sys2Proof.Machine

/-- What a line of a trace may name: an op (R69) or a pseudo-op (R70). -/
inductive TraceWord where
  | op (o : Op)
  | pressM
  | pressC
  | step
  deriving DecidableEq, Repr

/-- The mnemonics of R60 and R70, in upper case. -/
def traceWords : List (String × TraceWord) :=
  [ ("RST", .op .rst), ("SEQ", .op .seq), ("TMR", .op .tmr), ("EDM", .op .edm), ("EDC", .op .edc), ("SVM", .op .svm),
    ("SVC", .op .svc), ("PRESSM", .pressM), ("PRESSC", .pressC), ("STEP", .step) ]

/-- What a word stands for: an op for itself, a pseudo-op for its expansion (R70). -/
def TraceWord.ops : TraceWord → List Op
  | .op o => [o]
  | .pressM => [.edm, .svm]
  | .pressC => [.edc, .svc]
  | .step => [.tmr, .seq]

/-- One line of a trace that is not blank: `word*count`, or `word` alone with count 1 (R69), and which line of the
text it is: lines are counted from 1, blank lines and comments too. DEDUCED, safe (log entry 15). -/
structure TraceLine where
  line  : Nat
  word  : TraceWord
  count : Nat
  deriving DecidableEq, Repr

/-- A line's ops: its word's expansion, `count` times (R69, R70). -/
def TraceLine.ops (l : TraceLine) : List Op := (List.replicate l.count l.word.ops).flatten

/-- One op of a trace, with the line it is written on. -/
structure TracedOp where
  line : Nat
  op   : Op
  deriving DecidableEq, Repr

/-- The ops of a trace, each with its line: every op that a count or a pseudo-op stands for is on the line that
writes it (R69, R70). -/
def tracedOps (lines : List TraceLine) : List TracedOp :=
  lines.flatMap fun l => l.ops.map fun op => { line := l.line, op := op }

/-- The ops of a trace, its pseudo-ops expanded (R70). -/
def expandTrace (lines : List TraceLine) : List Op := (tracedOps lines).map TracedOp.op

/-- The codes of a trace, one an op (R71). -/
def assembleTrace (lines : List TraceLine) : List OpCode := (expandTrace lines).map Op.code

/-! ## Reading a trace's text (R69) -/

/-- The blanks that may stand around a word. The spec's examples indent their comments with spaces. DEDUCED, safe
(log entry 11). -/
def isBlank (c : Char) : Bool := c == ' ' || c == '\t' || c == '\r'

/-- A line without its comment, which starts at `;` (R69), and without the blanks at its two ends. -/
def bareLine (line : List Char) : List Char :=
  (((line.takeWhile fun c => c != ';').dropWhile isBlank).reverse.dropWhile isBlank).reverse

/-- The lines of a text. -/
def splitLines : List Char → List (List Char)
  | [] => [[]]
  | c :: rest =>
    if c == '\n' then [] :: splitLines rest
    else
      match splitLines rest with
      | [] => [[c]]
      | line :: more => (c :: line) :: more

/-- The number that decimal digits write, most significant first, `acc` being read already; none where a character is
no digit. -/
def readNumber (acc : Nat) : List Char → Option Nat
  | [] => some acc
  | c :: rest =>
    if decide ('0'.toNat ≤ c.toNat) && decide (c.toNat ≤ '9'.toNat) then
      readNumber (10 * acc + (c.toNat - '0'.toNat)) rest
    else none

/-- The count after `*`: a decimal number of at least 1 (R69). -/
def readCount (digits : List Char) : Option Nat :=
  match digits with
  | [] => none
  | d :: rest =>
    match readNumber 0 (d :: rest) with
    | some (n + 1) => some (n + 1)
    | _ => none

/-- The word a mnemonic spells (R60, R70). -/
def readWord (name : List Char) : Option TraceWord :=
  (traceWords.find? fun row => row.1.toList == name).map Prod.snd

/-- The bare line number `n`, which is not empty. -/
def readLine (n : Nat) (line : List Char) : Option TraceLine :=
  match readWord (line.takeWhile fun c => c != '*'), line.dropWhile fun c => c != '*' with
  | some word, [] => some { line := n, word := word, count := 1 }
  | some word, _ :: digits => (readCount digits).map fun k => { line := n, word := word, count := k }
  | none, _ => none

/-- The bare lines of a text with their numbers, from 1. -/
def numberedLines (text : String) : List (List Char × Nat) := ((splitLines text.toList).map bareLine).zipIdx 1

/-- The lines of a trace's text that are not blank (R69); none where a line is no trace line. -/
def readTrace (text : String) : Option (List TraceLine) :=
  ((numberedLines text).filter fun entry => !entry.1.isEmpty).mapM fun entry => readLine entry.2 entry.1

/-! ## Running a trace (R69) -/

/-- What running a trace from a start state comes to. -/
inductive TraceRun where
  /-- Every op had its step; the trace ends in this state. -/
  | ended (s : State)
  /-- The trace does not run: it is stuck at this line, whose op is not enabled in this state. -/
  | stuck (line : Nat) (op : Op) (s : State)
  deriving DecidableEq, Repr

/-- Takes the ops in order, each whole; where one has no step, reports its line (R69). -/
def runTracedOps : List TracedOp → State → TraceRun
  | [], s => .ended s
  | traced :: rest, s =>
    match take traced.op s with
    | .next t => runTracedOps rest t
    | .fault _ => .stuck traced.line traced.op s
    | .refused _ => .stuck traced.line traced.op s

/-- Runs the lines of a trace from a start state (R69). -/
def runTrace (lines : List TraceLine) (s : State) : TraceRun := runTracedOps (tracedOps lines) s

/-- Runs a trace's text from a start state; none where the text is no trace (R69). -/
def runText (text : String) (s : State) : Option TraceRun := (readTrace text).map fun lines => runTrace lines s

end Sys2Proof.Machine
end

