-- ==== Sys2Proof/Safety.lean ====
section
/-!
DEFINITION. Safety.lean: the terms claims use: running a list of ops (R69), the triangle ramp (R93, R94), the
invariants of every reachable state (R38), reachability (R153), and fair infinite runs (R159).
-/
namespace Sys2Proof.Machine

/-! ## Running a list of ops (R11, R69) -/

/-- The state in which taking the ops in order ends, each whole; none where one of them is not enabled at its point
(R69). A list of ops has no lines: runTrace says where a trace is stuck. -/
def runOps : List Op → State → Option State
  | [], s => some s
  | op :: ops, s =>
    match take op s with
    | .next t => runOps ops t
    | .fault _ => none
    | .refused _ => none

/-- The op or instruction has no step: it is held, or it is an arm that R62 does not select (R10). -/
def NoStep (outcome : Host.Outcome State Fault Refusal) : Prop := ∀ t, outcome ≠ .next t

/-- A list of ops `n` times over, as a trace's `*n` writes it (R69). -/
def repeatOps (n : Nat) (ops : List Op) : List Op := (List.replicate n ops).flatten

/-! ## The triangle ramp (R93, R94) -/

/-- The pairs (DUTY, TO_ADD) of R93: {(d, 1) : 0 ≤ d ≤ m − 1} ∪ {(d, 0) : 1 ≤ d ≤ m}. -/
def OnRamp {w : Nat} (d : BitVec w) (t : Bool) (m : BitVec w) : Prop :=
  (t = true ∧ d.toNat + 1 ≤ m.toNat) ∨ (t = false ∧ 1 ≤ d.toNat ∧ d.toNat ≤ m.toNat)

/-- The pair after `n` steps of DUTYSTEP from the entry state (0, 1), the maximum held at `m` (R93). -/
def rampAfter {w : Nat} (m : BitVec w) : Nat → BitVec w × Bool
  | 0 => (0#w, true)
  | n + 1 => dutyStep (rampAfter m n).1 (rampAfter m n).2 m

/-- R94's waveform: 0, 1, …, m, m − 1, …, 1, 0, 1, … with period 2m. -/
def triangle (m n : Nat) : Nat := if n % (2 * m) ≤ m then n % (2 * m) else 2 * m - n % (2 * m)

/-- Where in the period of R94's waveform a pair (DUTY, TO_ADD) on the ramp stands, from 0 to 2m − 1. -/
def rampPosition {w : Nat} (d : BitVec w) (t : Bool) (m : BitVec w) : Nat := if t then d.toNat else 2 * m.toNat - d.toNat

/-! ## The invariants (R38) -/

/-- R38's invariants 1 to 8 of one state, and FAULTED = 0. (Invariant 9 speaks of the last SEQ step: it is a statement
about runs, not a property of one state.) -/
structure Inv (s : State) : Prop where
  /-- 1. PHASE ≠ 3. -/
  phase_used : s.phase ≠ Phase.unused
  /-- 2. If PHASE = WAIT, then ENTRY ∈ {2, 3}. -/
  wait_pulse : s.phase = Phase.wait → s.entry = Mode.pulseCycling ∨ s.entry = Mode.pulseSingle
  /-- 3. If PHASE ≠ DISPATCH, then MAXL = SCALE(MAX_HW). -/
  max_latched : s.phase ≠ Phase.dispatch → s.maxl = s.scaledMax
  /-- 4. DUTY ≤ MAXL. -/
  duty_le : s.duty.toNat ≤ s.maxl.toNat
  /-- 5. If MAXL ≥ 1, the pair (DUTY, TO_ADD) is on the ramp. -/
  on_ramp : 1 ≤ s.maxl.toNat → OnRamp s.duty s.toAdd s.maxl
  /-- 6. If MAXL = 0, then (DUTY, TO_ADD) = (0, 1). -/
  at_zero : s.maxl.toNat = 0 → s.duty.toNat = 0 ∧ s.toAdd = true
  /-- 7. DWELL ≤ DWELL_TICKS. -/
  dwell_le : s.dwell.toNat ≤ s.params.dwellTicks
  /-- 8. Every CH[i] ≤ SCALE(MAX_HW). -/
  ch_le : ∀ i, (s.ch.get i).toNat ≤ s.scaledMax.toNat
  /-- The run has not faulted. -/
  not_faulted : s.faulted = false

/-- The states a run meets: a run starts in the state that RST leaves (R153), for any parameters within R6's
constraints and any trace, and goes on by the machine's step. -/
inductive Reachable : State → Prop
  | start (p : Params) (trace : List OpCode) (hp : p.wf = true) :
      Reachable { State.resetWith p with trace := trace }
  | next {s t : State} (hs : Reachable s) (ht : step s = .next t) : Reachable t

/-! ## Fair infinite runs (R159) -/

/-- An infinite run: `op n` is taken in the state `st n` and gives the state `st (n + 1)` (R11, R160). -/
def IsRun (st : Nat → State) (op : Nat → Op) : Prop := ∀ n, take (op n) (st n) = .next (st (n + 1))

/-- Weak fairness of an op: if from some point on it stays enabled, it is eventually taken (R159). -/
def WeaklyFair (st : Nat → State) (op : Nat → Op) (o : Op) : Prop :=
  ∀ n, (∀ m, n ≤ m → (st m).enabled o = true) → ∃ m, n ≤ m ∧ op m = o

/-- R159's fairness: SEQ, SVM and SVC are weakly fair, and TMR is taken infinitely often. -/
structure FairRun (st : Nat → State) (op : Nat → Op) : Prop where
  run  : IsRun st op
  seq  : WeaklyFair st op .seq
  svm  : WeaklyFair st op .svm
  svc  : WeaklyFair st op .svc
  tmr  : ∀ n, ∃ m, n ≤ m ∧ op m = .tmr

/-- How many of the `k` ops that an infinite run takes from point `n` on are SEQ. While a handler runs undisturbed
each of them is a tick (R12). -/
def seqCount (op : Nat → Op) (n : Nat) : Nat → Nat
  | 0 => 0
  | k + 1 => seqCount op n k + if op (n + k) = .seq then 1 else 0

end Sys2Proof.Machine
end

