-- ==== Sys2Proof/Certificates/Slice0/Obligations.lean ====
section
/-!
DEFINITION. Certificates/Slice0/Obligations.lean: the statements for the provers. Each docstring names the rule of
the spec it formalises.
-/
open Sys2Proof Sys2Proof.Machine

/-! ## Decoding and encoding (R60 to R62, R71) -/

/-- Every row of the opcode table is read back from its own code, in every control state in which R62 selects it. -/
def Obligations.DecodeReadsBackEveryRow : Prop :=
  ∀ (i : Instr) (c : Control), i.wf = true → i.selectedBy c = true → decode (encode i) c = .ok i

/-- The decoder answers a row exactly where the row is well formed, has that code and is selected; it answers "held"
exactly for SEQ in WAIT. So every code has one meaning in every control state (R60, R61, R62). -/
def Obligations.DecoderAnswersExactlyTheTable : Prop :=
  ∀ (code : OpCode) (c : Control),
    (∀ i, decode code c = .ok i ↔ (i.wf = true ∧ encode i = code ∧ i.selectedBy c = true)) ∧
    (∀ op, decode code c = .error op ↔ (op = .seq ∧ code = 0b0010#4 ∧ c.phase = 2#2))

/-- R60's table: the code, the mnemonic, the agent and the enabling condition of every op, and no other code of any op. -/
def Obligations.OpSelectorTable : Prop :=
  (opOf 0b0001#4 = some .rst ∧ opOf 0b0010#4 = some .seq ∧ opOf 0b0011#4 = some .tmr ∧ opOf 0b0100#4 = some .edm ∧
    opOf 0b0101#4 = some .edc ∧ opOf 0b0110#4 = some .svm ∧ opOf 0b0111#4 = some .svc ∧ opOf 0b0000#4 = none ∧
    ∀ code : OpCode, 8 ≤ code.toNat → opOf code = none) ∧
  (∀ (op : Op) (code : OpCode), opOf code = some op ↔ code = op.code) ∧
  (readWord ['R', 'S', 'T'] = some (.op .rst) ∧ readWord ['S', 'E', 'Q'] = some (.op .seq) ∧
    readWord ['T', 'M', 'R'] = some (.op .tmr) ∧ readWord ['E', 'D', 'M'] = some (.op .edm) ∧
    readWord ['E', 'D', 'C'] = some (.op .edc) ∧ readWord ['S', 'V', 'M'] = some (.op .svm) ∧
    readWord ['S', 'V', 'C'] = some (.op .svc)) ∧
  (Op.agent .rst = .host ∧ Op.agent .seq = .seq ∧ Op.agent .tmr = .tmr ∧ Op.agent .edm = .btnM ∧
    Op.agent .edc = .btnC ∧ Op.agent .svm = .updM ∧ Op.agent .svc = .updC) ∧
  (∀ s : State, s.enabled .rst = true ∧ s.enabled .tmr = true ∧ s.enabled .edm = true ∧ s.enabled .edc = true ∧
    (s.enabled .seq = true ↔ s.phase ≠ 2#2) ∧ (s.enabled .svm = true ↔ s.pendM = true) ∧
    (s.enabled .svc = true ↔ s.pendC = true))

/-- Codes written out from R60 decode to what they stand for, one for each family of the table. -/
def Obligations.SpecCodesDecode : Prop :=
  decode 0b0001#4 ⟨2#2, 3#2, 2#2⟩ = .ok .rst ∧ decode 0b0010#4 ⟨0#2, 3#2, 0#2⟩ = .ok .seqDispatch ∧
  decode 0b0010#4 ⟨1#2, 3#2, 2#2⟩ = .ok .seqExit ∧ decode 0b0010#4 ⟨1#2, 2#2, 2#2⟩ = .ok .seqTickPc ∧
  decode 0b0011#4 ⟨2#2, 3#2, 3#2⟩ = .ok .tmr ∧ decode 0b0100#4 ⟨0#2, 0#2, 0#2⟩ = .ok .edm ∧
  decode 0b0111#4 ⟨0#2, 0#2, 0#2⟩ = .ok .svc ∧ decode 0b1000#4 ⟨0#2, 0#2, 0#2⟩ = .ok (.reservedHigh 0b1000#4)

/-- R62: the arm that code 0010 takes, the first condition of the table that holds deciding. -/
def Obligations.SeqArmSelection : Prop :=
  ∀ c : Control,
    (c.phase.toNat = 0 → decode 0b0010#4 c = .ok .seqDispatch) ∧
    (c.phase.toNat = 1 → c.mode ≠ c.entry → decode 0b0010#4 c = .ok .seqExit) ∧
    (c.phase.toNat = 1 → c.mode = c.entry → c.entry.toNat = 0 → decode 0b0010#4 c = .ok .seqTickCc) ∧
    (c.phase.toNat = 1 → c.mode = c.entry → c.entry.toNat = 1 → decode 0b0010#4 c = .ok .seqTickCs) ∧
    (c.phase.toNat = 1 → c.mode = c.entry → c.entry.toNat = 2 → decode 0b0010#4 c = .ok .seqTickPc) ∧
    (c.phase.toNat = 1 → c.mode = c.entry → c.entry.toNat = 3 → decode 0b0010#4 c = .ok .seqTickPs) ∧
    (c.phase.toNat = 2 → decode 0b0010#4 c = .error .seq) ∧
    (c.phase.toNat = 3 → decode 0b0010#4 c = .ok .seqBadphase)

/-- R110: exactly one arm of SEQ applies to each state with PHASE ≠ WAIT, and it is the one SEQ takes; in WAIT none
applies and SEQ has no step. -/
def Obligations.SeqHasExactlyOneArm : Prop :=
  ∀ s : State,
    (s.phase ≠ 2#2 →
      ∃ i t, i.op = some .seq ∧ exec i s = .next t ∧ take .seq s = .next t ∧
        ∀ j u, j.op = some .seq → exec j s = .next u → j = i) ∧
    (s.phase = 2#2 →
      NoStep (take .seq s) ∧ ∀ j, j.op = some .seq → NoStep (exec j s))

/-- R61, R130: a reserved code sets REFUSED and records itself with its position; the state is otherwise unchanged. That
the record is appended at the end of a list, and that the answer is a next state, are the model's readings (log entries
7 and 4). -/
def Obligations.ReservedCodesAreRefused : Prop :=
  ∀ (code : OpCode) (s : State),
    (exec .reservedZero s = .next { s with refused := true, refusals := s.refusals ++ [⟨s.pos, 0#4⟩] }) ∧
    (exec (.reservedHigh code) s = .next { s with refused := true, refusals := s.refusals ++ [⟨s.pos, code⟩] }) ∧
    (code = 0#4 ∨ 8 ≤ code.toNat →
      takeCode code s = .next { s with refused := true, refusals := s.refusals ++ [⟨s.pos, code⟩] })

/-- R71: a trace is the sequence of its digits, the first op leftmost; the spec's example is 1462. -/
def Obligations.HexTraceReadsBack : Prop :=
  (∀ codes : List OpCode, codesOfHex (hexOfCodes codes) = some codes) ∧
  (∀ ops : List Op, hexOfCodes (ops.map Op.code) = ops.map fun op => digitOfCode op.code) ∧
  hexOfCodes ([Op.rst, .edm, .svm, .seq].map Op.code) = ['1', '4', '6', '2']

/-! ## Reset (R150, R151) -/

/-- R150: RST, from any state, writes every register's reset value; FAULTED and REFUSED are kept. -/
def Obligations.ResetWritesEveryRegister : Prop :=
  ∀ s : State,
    takeCode 0b0001#4 s = exec .rst s ∧
    exec .rst s = .next { s with
      mode := 0#2, color := 1#3, pendM := false, pendC := false, phase := 0#2, entry := 0#2,
      duty := BitVec.ofNat _ 0, toAdd := true, maxl := BitVec.ofNat _ 0, dwell := BitVec.ofNat _ 0,
      ch := ⟨BitVec.ofNat _ 0, BitVec.ofNat _ 0, BitVec.ofNat _ 0⟩ }

/-- R151: after RST the first SEQ is a DISPATCH with MODE = 0, and the first tick lights red at the maximum; no edge is
pending. -/
def Obligations.FirstTickAfterResetLightsRed : Prop :=
  ∀ s : State, s.params.wf = true →
    ∃ a b t, runOps [.rst] s = some a ∧ a.mode = 0#2 ∧ a.color = 1#3 ∧ a.phase = 0#2 ∧ a.pendM = false ∧
      a.pendC = false ∧ take .seq a = exec .seqDispatch a ∧ take .seq a = .next b ∧ b.entry = 0#2 ∧
      take .seq b = exec .seqTickCc b ∧ take .seq b = .next t ∧ t.maxl = t.scaledMax ∧
      t.ch.r = t.maxl ∧ t.ch.g.toNat = 0 ∧ t.ch.b.toNat = 0

/-! ## Edges and updates (R80 to R88) -/

/-- R83: EDM sets PEND_M and nothing else, at any time; an edge on a set latch merges, so that one SVM follows for both. -/
def Obligations.ModeEdgeSetsItsLatch : Prop :=
  ∀ s : State,
    takeCode 0b0100#4 s = exec .edm s ∧ exec .edm s = .next { s with pendM := true } ∧
    (s.pendM = true →
      exec .edm s = .next s ∧
      ∃ t, runOps [.edm, .svm] s = some t ∧ NoStep (take .svm t))

/-- R84: EDC sets PEND_C and nothing else, at any time; an edge on a set latch merges, so that one SVC follows for both. -/
def Obligations.ColorEdgeSetsItsLatch : Prop :=
  ∀ s : State,
    takeCode 0b0101#4 s = exec .edc s ∧ exec .edc s = .next { s with pendC := true } ∧
    (s.pendC = true →
      exec .edc s = .next s ∧
      ∃ t, runOps [.edc, .svc] s = some t ∧ NoStep (take .svc t))

/-- R85: with PEND_M = 1, in any phase, SVM advances MODE modulo 4, clears PEND_M and writes nothing else; with
PEND_M = 0 it has no step. -/
def Obligations.ModeServiceAdvancesMode : Prop :=
  ∀ s : State,
    takeCode 0b0110#4 s = exec .svm s ∧
    (s.pendM = true →
      exec .svm s = .next { s with mode := BitVec.ofNat 2 ((s.mode.toNat + 1) % 4), pendM := false }) ∧
    (s.pendM = false → NoStep (exec .svm s))

/-- R86: with PEND_C = 1, in any phase, SVC advances COLOR modulo 8, clears PEND_C and writes nothing else; with
PEND_C = 0 it has no step. -/
def Obligations.ColorServiceAdvancesColor : Prop :=
  ∀ s : State,
    takeCode 0b0111#4 s = exec .svc s ∧
    (s.pendC = true →
      exec .svc s = .next { s with color := BitVec.ofNat 3 ((s.color.toNat + 1) % 8), pendC := false }) ∧
    (s.pendC = false → NoStep (exec .svc s))

/-- R80, R81: n presses of a button that are serviced at once advance MODE by n modulo 4 and COLOR by n modulo 8, and
change nothing else; four mode presses return MODE to its value (§8 of the source, E5). -/
def Obligations.PressesAdvanceModuloFourAndEight : Prop :=
  (∀ m, (advMode m).toNat = (m.toNat + 1) % 4 ∧ advMode (advMode (advMode (advMode m))) = m) ∧
  (∀ c, (advBtn c).toNat = (c.toNat + 1) % 8) ∧
  ∀ (n : Nat) (s : State),
    runOps (repeatOps (n + 1) [.edm, .svm]) s =
      some { s with mode := BitVec.ofNat 2 ((s.mode.toNat + (n + 1)) % 4), pendM := false } ∧
    runOps (repeatOps (n + 1) [.edc, .svc]) s =
      some { s with color := BitVec.ofNat 3 ((s.color.toNat + (n + 1)) % 8), pendC := false } ∧
    runOps (repeatOps 4 [.edm, .svm]) s = some { s with pendM := false }

/-- R87: edges with no service between them are followed by one service: whatever else runs with them (no RST), one SVM
then advances MODE once, and no second SVM is enabled until a new edge. The same for EDC and SVC. -/
def Obligations.PendingEdgesMerge : Prop :=
  ∀ (ops more : List Op) (s u v : State),
    (.edm ∈ ops → .svm ∉ ops → .rst ∉ ops → runOps ops s = some u →
      ∃ t, take .svm u = .next t ∧ t.mode = advMode s.mode ∧ t.pendM = false ∧
        (.edm ∉ more → runOps more t = some v → NoStep (take .svm v))) ∧
    (.edc ∈ ops → .svc ∉ ops → .rst ∉ ops → runOps ops s = some u →
      ∃ t, take .svc u = .next t ∧ t.color = advBtn u.color ∧ t.pendC = false ∧
        (.edc ∉ more → runOps more t = some v → NoStep (take .svc v)))

/-- R88: when both updates are enabled, the result does not depend on their order. -/
def Obligations.UpdatesCommute : Prop :=
  ∀ s : State, s.pendM = true → s.pendC = true →
    runOps [.svm, .svc] s = runOps [.svc, .svm] s ∧
    runOps [.svm, .svc] s =
      some { s with mode := advMode s.mode, color := advBtn s.color, pendM := false, pendC := false }

/-- R57: where SVC and an autonomous advance are both ready, both orders run, each applies both advances, and they differ
exactly from COLOR = 6 and COLOR = 7. -/
def Obligations.ColorRaceLosesNoUpdate : Prop :=
  ∀ s : State, s.phase = 1#2 → s.mode = s.entry → s.pendC = true →
    (s.entry = 2#2 ∧ s.rampReturns = true ∨ s.entry = 0#2 ∧ s.dwellReached = true) →
    ∃ t u, runOps [.svc, .seq] s = some t ∧ runOps [.seq, .svc] s = some u ∧
      t.color = advAuto (advBtn s.color) ∧ u.color = advBtn (advAuto s.color) ∧
      (t.color ≠ u.color ↔ s.color = 6#3 ∨ s.color = 7#3)

/-- R23, R82: an autonomous advance adds 1 modulo 8 and never gives 0, and COLOR = 0 is reached only through SVC: any
other instruction that ends with COLOR = 0 began with it. -/
def Obligations.OnlyTheButtonSelectsAllOff : Prop :=
  (∀ c, (advAuto c).toNat = (if (c.toNat + 1) % 8 = 0 then 1 else (c.toNat + 1) % 8)) ∧
  ∀ (i : Instr) (s t : State), exec i s = .next t → t.color.toNat = 0 → i = .svc ∨ s.color.toNat = 0

/-! ## Writers of the registers: the frame of every instruction (R22 to R32) -/

/-- R22, R23, R24: only SVM and RST write MODE; only SVC, TICK_PC, TICK_CC and RST write COLOR; only EDM, SVM and RST
write PEND_M; only EDC, SVC and RST write PEND_C. -/
def Obligations.SharedRegisterWriters : Prop :=
  ∀ (i : Instr) (s t : State), exec i s = .next t →
    (t.mode ≠ s.mode → i = .svm ∨ i = .rst) ∧
    (t.color ≠ s.color → i = .svc ∨ i = .seqTickPc ∨ i = .seqTickCc ∨ i = .rst) ∧
    (t.pendM ≠ s.pendM → i = .edm ∨ i = .svm ∨ i = .rst) ∧
    (t.pendC ≠ s.pendC → i = .edc ∨ i = .svc ∨ i = .rst)

/-- R25 to R30: the instructions that write the sequencer's own registers. -/
def Obligations.SequencerRegisterWriters : Prop :=
  ∀ (i : Instr) (s t : State), exec i s = .next t →
    (t.phase ≠ s.phase →
      i = .seqDispatch ∨ i = .seqExit ∨ i = .seqTickPc ∨ i = .seqTickPs ∨ i = .tmr ∨ i = .rst) ∧
    (t.entry ≠ s.entry → i = .seqDispatch ∨ i = .rst) ∧
    (t.duty.toNat ≠ s.duty.toNat → i = .seqDispatch ∨ i = .seqTickPs ∨ i = .seqTickPc ∨ i = .rst) ∧
    (t.toAdd ≠ s.toAdd → i = .seqDispatch ∨ i = .seqTickPs ∨ i = .seqTickPc ∨ i = .rst) ∧
    (t.maxl.toNat ≠ s.maxl.toNat → i = .seqDispatch ∨ i = .rst) ∧
    (t.dwell.toNat ≠ s.dwell.toNat → i = .seqDispatch ∨ i = .tmr ∨ i = .seqTickCc ∨ i = .rst)

/-- R31, R119: only RST, the tick arm of the running handler ENTRY, and EXIT from a pulse mode write the channel
registers. -/
def Obligations.ChannelOwnership : Prop :=
  ∀ (i : Instr) (s t : State), exec i s = .next t →
    (∃ k, (t.ch.get k).toNat ≠ (s.ch.get k).toNat) →
      i = .rst ∨
      (s.phase = 1#2 ∧ s.mode = s.entry ∧
        (i = .seqTickCc ∧ s.entry = 0#2 ∨ i = .seqTickCs ∧ s.entry = 1#2 ∨ i = .seqTickPc ∧ s.entry = 2#2 ∨
          i = .seqTickPs ∧ s.entry = 3#2)) ∨
      (s.phase = 1#2 ∧ s.mode ≠ s.entry ∧ i = .seqExit ∧ (s.entry = 2#2 ∨ s.entry = 3#2))

/-- R6, R39: no step changes the parameters. -/
def Obligations.ParametersAreFixed : Prop := ∀ s t : State, step s = .next t → t.params = s.params

/-- R32, R130: FAULTED and REFUSED are 0 at the start of a run; no instruction, not even RST, clears either or drops a
recorded refusal; only SEQ with PHASE = 3 sets FAULTED, and only a reserved code sets REFUSED. That the record is a list
which grows only at its end is the model's reading (log entry 7), and so is that the marks are set in a next state (log
entry 4). -/
def Obligations.MarksAreSticky : Prop :=
  (∀ p : Params, (State.resetWith p).faulted = false ∧ (State.resetWith p).refused = false) ∧
  ∀ (i : Instr) (s t : State), exec i s = .next t →
    (s.faulted = true → t.faulted = true) ∧ (s.refused = true → t.refused = true) ∧ s.refusals <+: t.refusals ∧
    (t.faulted = s.faulted ∨ t.faulted = true ∧ i = .seqBadphase ∧ s.phase = 3#2) ∧
    (t.refused = s.refused ∨ t.refused = true ∧ (i = .reservedZero ∨ ∃ code, i = .reservedHigh code))

/-! ## Duty generator (R90 to R95) -/

/-- R90: SCALE keeps the maximum or divides it by 4, rounding down, and DISPATCH latches the result. -/
def Obligations.ScaleIsLatchedAtDispatch : Prop :=
  (∀ (w : Nat) (h : BitVec w),
    scale false h = h ∧ (scale true h).toNat = h.toNat / 4 ∧ (h.toNat ≤ 3 → (scale true h).toNat = 0)) ∧
  ∀ s : State, s.phase = 0#2 →
    ∃ t, take .seq s = .next t ∧ t.maxl = scale t.params.dutyDiv4 t.params.maxHw ∧ t.params = s.params

/-- R91: DUTYSTEP in unsigned arithmetic modulo 2^W, and the arms that call it write its pair to DUTY and TO_ADD. -/
def Obligations.DutyStepRule : Prop :=
  (∀ s t : State, exec .seqTickPs s = .next t ∨ exec .seqTickPc s = .next t →
    t.duty.toNat = (dutyStep s.duty s.toAdd s.maxl).1.toNat ∧ t.toAdd = (dutyStep s.duty s.toAdd s.maxl).2) ∧
  ∀ (w : Nat) (d m : BitVec w),
    (∀ t, m.toNat = 0 → dutyStep d t m = (d, t)) ∧
    (m.toNat ≠ 0 →
      (dutyStep d true m).1.toNat = (d.toNat + 1) % 2 ^ w ∧
      ((dutyStep d true m).2 = false ↔ (d.toNat + 1) % 2 ^ w = m.toNat) ∧
      (dutyStep d false m).1.toNat = (d.toNat + (2 ^ w - 1)) % 2 ^ w ∧
      ((dutyStep d false m).2 = true ↔ (d.toNat + (2 ^ w - 1)) % 2 ^ w = 0))

/-- R92: RETURNED holds where m ≥ 1, the ramp is falling and the duty is 1: on the ramp, exactly the step that writes 0
and turns the direction to increasing. -/
def Obligations.ReturnedIsTheStepToZero : Prop :=
  ∀ (w : Nat) (d m : BitVec w) (t : Bool),
    (returned d t m = true ↔ (1 ≤ m.toNat ∧ t = false ∧ d.toNat = 1)) ∧
    (1 ≤ m.toNat → OnRamp d t m →
      (returned d t m = true ↔ (t = false ∧ (dutyStep d t m).1.toNat = 0 ∧ (dutyStep d t m).2 = true)))

/-- R93: from the entry state the pair stays on the ramp for ever, and every step changes the duty by exactly +1 or
−1, without wrapping. -/
def Obligations.TriangleInvariant : Prop :=
  ∀ (w : Nat) (m : BitVec w) (n : Nat), 1 ≤ m.toNat →
    OnRamp (rampAfter m n).1 (rampAfter m n).2 m ∧ (rampAfter m n).1.toNat ≤ m.toNat ∧
    ((rampAfter m n).2 = true → (rampAfter m (n + 1)).1.toNat = (rampAfter m n).1.toNat + 1) ∧
    ((rampAfter m n).2 = false → (rampAfter m (n + 1)).1.toNat + 1 = (rampAfter m n).1.toNat)

/-- R94: the duty after n steps is the triangle wave of period 2m, rising for m steps and falling for m, and the steps on
which RETURNED holds are the multiples of 2m. -/
def Obligations.WaveformClosedForm : Prop :=
  ∀ (w : Nat) (m : BitVec w) (n : Nat), 1 ≤ m.toNat →
    (rampAfter m n).1.toNat = triangle m.toNat n ∧
    ((rampAfter m n).2 = true ↔ n % (2 * m.toNat) < m.toNat) ∧
    (returned (rampAfter m n).1 (rampAfter m n).2 m = true ↔ (n + 1) % (2 * m.toNat) = 0)

/-- R95: SCALE gives 0 exactly where MAX_HW = 0, or DUTY_DIV4 is true and MAX_HW ≤ 3; with MAXL = 0 a pulse mode holds
(DUTY, TO_ADD) at (0, 1), never advances COLOR and drives 0, for any number of ticks. -/
def Obligations.ZeroMaximumHoldsTheRamp : Prop :=
  (∀ (w : Nat) (h : BitVec w) (div4 : Bool),
    (scale div4 h).toNat = 0 ↔ h.toNat = 0 ∨ (div4 = true ∧ h.toNat ≤ 3)) ∧
  ∀ (n : Nat) (s : State), s.phase = 1#2 → s.mode = s.entry → (s.entry = 2#2 ∨ s.entry = 3#2) →
    s.maxl.toNat = 0 → s.duty.toNat = 0 → s.toAdd = true →
    runOps (repeatOps (n + 1) [.seq, .tmr]) s =
      some { s with ch := ⟨BitVec.ofNat _ 0, BitVec.ofNat _ 0, BitVec.ofNat _ 0⟩ }

/-! ## Channel driver (R100 to R103) -/

/-- R100, R101: DRIVE writes v to the lanes whose mask bit is 1 and 0 to the others; ZERO_ALL is DRIVE(0, 0). -/
def Obligations.DriveWritesEveryLane : Prop :=
  ∀ (w : Nat) (c : BitVec 3) (v : BitVec w) (i : Fin 3),
    (drive c v).get i = (if c.getLsbD i.val = true then v else BitVec.ofNat w 0) ∧
    (zeroAll w).get i = BitVec.ofNat w 0 ∧ zeroAll w = drive 0#3 (BitVec.ofNat w 0)

/-- R102, R103: after any tick each channel holds the driven value where its COLOR bit is 1 and 0 where it is 0: MAXL in
the constant modes, DUTY after the step in the pulse modes. -/
def Obligations.NoStaleChannel : Prop :=
  ∀ (i : Instr) (s t : State) (k : Fin 3), exec i s = .next t →
    (i = .seqTickCc ∨ i = .seqTickCs →
      t.ch.get k = if t.color.getLsbD k.val = true then t.maxl else BitVec.ofNat _ 0) ∧
    (i = .seqTickPc ∨ i = .seqTickPs →
      t.ch.get k = if t.color.getLsbD k.val = true then t.duty else BitVec.ofNat _ 0)

/-! ## Mode sequencer and timer (R111 to R121) -/

/-- R111: DISPATCH enters the handler for the current MODE and latches the maximum; CH and COLOR are not touched. -/
def Obligations.DispatchEntersTheHandler : Prop :=
  ∀ s : State, s.phase = 0#2 →
    takeCode 0b0010#4 s = exec .seqDispatch s ∧
    exec .seqDispatch s = .next { s with
      entry := s.mode, duty := BitVec.ofNat _ 0, toAdd := true,
      maxl := scale s.params.dutyDiv4 s.params.maxHw, dwell := BitVec.ofNat _ 0, phase := 1#2 }

/-- R112: with the guard failed, EXIT zeroes the channels of a pulse mode, keeps those of a constant mode, and leaves every
other register but PHASE; with MODE = ENTRY again there is no EXIT. -/
def Obligations.ExitCleansUpPulseModes : Prop :=
  ∀ s : State, s.phase = 1#2 →
    (s.mode ≠ s.entry →
      takeCode 0b0010#4 s = exec .seqExit s ∧
      (s.entry = 2#2 ∨ s.entry = 3#2 →
        exec .seqExit s = .next { s with
          ch := ⟨BitVec.ofNat _ 0, BitVec.ofNat _ 0, BitVec.ofNat _ 0⟩, phase := 0#2 }) ∧
      (s.entry = 0#2 ∨ s.entry = 1#2 → exec .seqExit s = .next { s with phase := 0#2 })) ∧
    (s.mode = s.entry → NoStep (exec .seqExit s))

/-- R113: one tick of PulseSingle. -/
def Obligations.TickOfPulseSingle : Prop :=
  ∀ s : State, s.phase = 1#2 → s.mode = 3#2 → s.entry = 3#2 →
    takeCode 0b0010#4 s = exec .seqTickPs s ∧
    exec .seqTickPs s = .next { s with
      duty := (dutyStep s.duty s.toAdd s.maxl).1, toAdd := (dutyStep s.duty s.toAdd s.maxl).2,
      ch := drive s.color (dutyStep s.duty s.toAdd s.maxl).1, phase := 2#2 }

/-- R114: one tick of PulseCycling: COLOR advances, never to 0, exactly on the step that returns to 0, before the drive. -/
def Obligations.TickOfPulseCycling : Prop :=
  ∀ s : State, s.phase = 1#2 → s.mode = 2#2 → s.entry = 2#2 →
    takeCode 0b0010#4 s = exec .seqTickPc s ∧
    (returned s.duty s.toAdd s.maxl = false →
      exec .seqTickPc s = .next { s with
        duty := (dutyStep s.duty s.toAdd s.maxl).1, toAdd := (dutyStep s.duty s.toAdd s.maxl).2,
        ch := drive s.color (dutyStep s.duty s.toAdd s.maxl).1, phase := 2#2 }) ∧
    (returned s.duty s.toAdd s.maxl = true →
      exec .seqTickPc s = .next { s with
        duty := BitVec.ofNat _ 0, toAdd := true,
        color := BitVec.ofNat 3 (if s.color.toNat = 7 then 1 else s.color.toNat + 1),
        ch := ⟨BitVec.ofNat _ 0, BitVec.ofNat _ 0, BitVec.ofNat _ 0⟩, phase := 2#2 })

/-- R115: one poll of ConstantSingle: the channels are driven with MAXL and nothing else changes. -/
def Obligations.PollOfConstantSingle : Prop :=
  ∀ s : State, s.phase = 1#2 → s.mode = 1#2 → s.entry = 1#2 →
    takeCode 0b0010#4 s = exec .seqTickCs s ∧
    exec .seqTickCs s = .next { s with ch := drive s.color s.maxl }

/-- R116: one poll of ConstantCycling: with the dwell over, COLOR advances, never to 0, and DWELL restarts; the drive uses
the COLOR after that. -/
def Obligations.PollOfConstantCycling : Prop :=
  ∀ s : State, s.phase = 1#2 → s.mode = 0#2 → s.entry = 0#2 →
    takeCode 0b0010#4 s = exec .seqTickCc s ∧
    (s.dwell.toNat < s.params.dwellTicks → exec .seqTickCc s = .next { s with ch := drive s.color s.maxl }) ∧
    (s.params.dwellTicks ≤ s.dwell.toNat →
      exec .seqTickCc s = .next { s with
        color := BitVec.ofNat 3 (if s.color.toNat = 7 then 1 else s.color.toNat + 1), dwell := BitVec.ofNat _ 0,
        ch := drive (BitVec.ofNat 3 (if s.color.toNat = 7 then 1 else s.color.toNat + 1)) s.maxl })

/-- R117: SEQ with PHASE = 3 sets FAULTED and leaves every register unchanged. -/
def Obligations.BadPhaseSetsFaulted : Prop :=
  ∀ s : State, s.phase = 3#2 →
    takeCode 0b0010#4 s = exec .seqBadphase s ∧ exec .seqBadphase s = .next { s with faulted := true }

/-- R118: TMR ends a WAIT, counts the dwell up to DWELL_TICKS while ConstantCycling runs, and else has no effect. -/
def Obligations.TimerStrobe : Prop :=
  ∀ s : State,
    takeCode 0b0011#4 s = exec .tmr s ∧
    (s.phase = 2#2 → exec .tmr s = .next { s with phase := 1#2 }) ∧
    (s.phase = 1#2 → s.entry = 0#2 → s.params.wf = true →
      ∃ n : BitVec s.params.dwellWidth, n.toNat = min (s.dwell.toNat + 1) s.params.dwellTicks ∧
        exec .tmr s = .next { s with dwell := n }) ∧
    (s.phase ≠ 2#2 → ¬(s.phase = 1#2 ∧ s.entry = 0#2) → exec .tmr s = .next s)

/-- R120: after a mode change that leaves MODE ≠ ENTRY, while no further mode service or reset comes: in GUARD the next
SEQ is an EXIT; in WAIT SEQ is held until a TMR, after which it is an EXIT. -/
def Obligations.ModeChangeIsSeenAtTheNextSeq : Prop :=
  ∀ (ops : List Op) (s u : State), s.mode ≠ s.entry → (s.phase = 1#2 ∨ s.phase = 2#2) →
    (∀ op ∈ ops, op = .tmr ∨ op = .edm ∨ op = .edc ∨ op = .svc) → runOps ops s = some u →
    (s.phase = 1#2 ∨ .tmr ∈ ops →
      take .seq u = exec .seqExit u ∧ ∃ t, take .seq u = .next t ∧ t.phase = 0#2) ∧
    (s.phase = 2#2 → .tmr ∉ ops → NoStep (take .seq u))

/-- R120, last part: after SVC the next tick drives with the new COLOR (a tick without an advance of its own). -/
def Obligations.ColorChangeShowsAtTheNextTick : Prop :=
  ∀ s : State, s.phase = 1#2 → s.mode = s.entry → s.pendC = true → s.rampReturns = false → s.dwellReached = false →
    ∃ t, runOps [.svc, .seq] s = some t ∧ t.color = advBtn s.color ∧
      ∀ k : Fin 3, t.ch.get k =
        if (advBtn s.color).getLsbD k.val = true then (if s.entry = 2#2 ∨ s.entry = 3#2 then t.duty else t.maxl)
        else BitVec.ofNat _ 0

/-- R157, R38.9: after EXIT from a pulse mode the channels are 0, whatever runs, until and through the next DISPATCH. -/
def Obligations.ExitDarkensUntilTheNextHandler : Prop :=
  ∀ (ops : List Op) (s u : State), s.phase = 1#2 → s.mode ≠ s.entry → (s.entry = 2#2 ∨ s.entry = 3#2) →
    .seq ∉ ops → runOps (.seq :: ops) s = some u →
    u.phase = 0#2 ∧ (∀ k, (u.ch.get k).toNat = 0) ∧
    ∃ v, take .seq u = .next v ∧ v.phase = 1#2 ∧ ∀ k, (v.ch.get k).toNat = 0

/-- R24, R37: SEQ and TMR read no pending latch: with other latch values they do the same and keep those values. -/
def Obligations.SequencerIgnoresTheLatches : Prop :=
  ∀ (s t : State) (a b : Bool) (op : Op), (op = .seq ∨ op = .tmr) → take op s = .next t →
    take op { s with pendM := a, pendC := b } = .next { t with pendM := a, pendC := b }

/-- R54, last point: every op except SVM and SVC is idempotent in its effect on the latches. -/
def Obligations.LatchEffectsAreIdempotent : Prop :=
  ∀ (op : Op) (s t u : State), op ≠ .svm → op ≠ .svc → take op s = .next t → take op t = .next u →
    u.pendM = t.pendM ∧ u.pendC = t.pendC

/-! ## The step relation and the schedule (R10, R11, R69, R130, R160) -/

/-- R10, R60, R130: an op has a step exactly where it is enabled. Elsewhere the model answers that it is held, by name,
and an arm of SEQ that R62 does not select answers that it is not this arm: how the model says "no step" is its own
(log entry 6). -/
def Obligations.OpStepsExactlyWhenEnabled : Prop :=
  (∀ (op : Op) (s : State),
    ((∃ t, take op s = .next t) ↔ s.enabled op = true) ∧
    (s.enabled op = false → take op s = .fault (.held op s.pos))) ∧
  ∀ (i : Instr) (s : State), i.op = some .seq →
    ((∃ t, exec i s = .next t) ↔ i.selectedBy s.control = true) ∧
    (i.selectedBy s.control = false → exec i s = .fault (.notThisArm s.pos))

/-- A step runs the decoded instruction: where the trace's next code decodes to i, step is exec of i after the
schedule has moved past the code; where the decoder answers that the op is held, the trace is stuck there (R69). The
trace, the count of ops taken and the fault's name are the model's own (log entries 3 and 6). -/
def Obligations.StepRunsTheDecodedInstruction : Prop :=
  ∀ (s : State) (code : OpCode) (rest : List OpCode), s.trace = code :: rest →
    (∀ i, decode code s.control = .ok i → step s = exec i { s with trace := rest, pos := s.pos + 1 }) ∧
    (∀ op, decode code s.control = .error op → step s = .fault (.held op (s.pos + 1)))

/-- R11, R135, R160: with no trace left, whatever the free choice, the step takes some enabled op whole and has a next
state. The choice is the model's free value (log entry 2). -/
def Obligations.FreeStepTakesAnEnabledOp : Prop :=
  ∀ s : State, s.trace = [] →
    ∃ op t, s.enabled op = true ∧ step s = take op { s with pos := s.pos + 1 } ∧ step s = .next t

/-- R130: a step never answers the host's outcome "refused", because the spec's refuse(ReservedOp) is a next state of the
model (log entry 4), and it stops only where the trace holds one of SEQ, SVM and SVC that is not enabled. The trace, the
count of ops taken and the fault's name are the model's own (log entries 3 and 6). -/
def Obligations.StepStopsOnlyWhereAnOpIsHeld : Prop :=
  ∀ s : State,
    (∀ r, step s ≠ .refused r) ∧
    (∀ f, step s = .fault f →
      ∃ op rest, f = .held op (s.pos + 1) ∧ (op = .seq ∨ op = .svm ∨ op = .svc) ∧ s.enabled op = false ∧
        s.trace = op.code :: rest)

/-- R69, R71: stepping the machine through a trace is running the trace's ops in order. The fields for the trace and the
count of ops taken are the model's own (log entry 3). -/
def Obligations.TraceRunIsTheRunOfItsOps : Prop :=
  ∀ (ops : List Op) (rest : List OpCode) (s t : State), runOps ops s = some t →
    Host.Core.run Sys2Proof.core ops.length { s with trace := ops.map Op.code ++ rest } =
      .next { t with trace := rest, pos := s.pos + ops.length }

/-- R69: a trace's text keeps each line's number; running the trace ends where running its ops in order ends; and where
an op is not enabled at its point, the trace is reported as stuck at that op's line, in the state the ops before it lead
to, with nothing of the op applied. The machine's own run of the assembled codes stops at the same op, by its position. How lines
are numbered is the model's reading (log entry 15), and the trace, the count of ops taken and the fault's name are its own
(log entries 3 and 6). -/
def Obligations.TraceReportsTheLineItIsStuckAt : Prop :=
  (∀ (text : String) (lines : List TraceLine), readTrace text = some lines → ∀ l ∈ lines,
    1 ≤ l.line ∧ ∃ raw, (splitLines text.toList)[l.line - 1]? = some raw ∧ readLine l.line (bareLine raw) = some l) ∧
  ∀ (lines : List TraceLine) (s : State),
    (∀ t, runTrace lines s = .ended t ↔ runOps (expandTrace lines) s = some t) ∧
    (∀ line op u, runTrace lines s = .stuck line op u →
      ∃ before after, tracedOps lines = before ++ ⟨line, op⟩ :: after ∧ runOps (before.map TracedOp.op) s = some u ∧
        u.enabled op = false ∧
        Host.Core.run Sys2Proof.core (before.length + 1) { s with trace := assembleTrace lines } =
          .fault (.held op (s.pos + before.length + 1)))

/-! ## Invariants (R38, R130) -/

/-- R38's invariants hold in the state after reset, for every choice of the parameters. -/
def Obligations.InvariantsHoldAtReset : Prop :=
  Inv State.reset ∧ ∀ (p : Params) (trace : List OpCode), Inv { State.resetWith p with trace := trace }

/-- R38: every step keeps the invariants. -/
def Obligations.InvariantsKeptByEveryStep : Prop := ∀ s t : State, Inv s → step s = .next t → Inv t

/-- R38, R130: in every reachable state the invariants hold, and no step from one sets FAULTED. A run starts with any
trace, the model's own field (log entry 3). -/
def Obligations.ReachableStatesAreSafe : Prop :=
  ∀ s : State, Reachable s → Inv s ∧ s.params.wf = true ∧ ∀ t, step s = .next t → t.faulted = false

/-! ## Whole runs (R94, R116, R161) -/

/-- R94, R113 (E2): PulseSingle from its entry state, a TMR after each tick: after n + 1 ticks the duty is the triangle wave,
TO_ADD tells its rising half, and exactly the channels of COLOR carry the duty. -/
def Obligations.PulseSingleDrivesTheTriangle : Prop :=
  ∀ (n : Nat) (s : State), s.phase = 1#2 → s.mode = 3#2 → s.entry = 3#2 → s.duty.toNat = 0 → s.toAdd = true →
    1 ≤ s.maxl.toNat →
    ∃ d : BitVec s.params.dutyWidth, d.toNat = triangle s.maxl.toNat (n + 1) ∧
      runOps (repeatOps (n + 1) [.seq, .tmr]) s =
        some { s with
          duty := d, toAdd := decide ((n + 1) % (2 * s.maxl.toNat) < s.maxl.toNat), ch := drive s.color d }

/-- R161.2 on one schedule: PulseCycling from its entry state, a TMR after each tick: after n ticks COLOR has advanced
once for every 2 · MAXL ticks. -/
def Obligations.PulseCyclingAdvancesOncePerPeriod : Prop :=
  ∀ (n : Nat) (s : State), s.phase = 1#2 → s.mode = 2#2 → s.entry = 2#2 → s.duty.toNat = 0 → s.toAdd = true →
    1 ≤ s.maxl.toNat →
    ∃ t, runOps (repeatOps n [.seq, .tmr]) s = some t ∧
      t.color = Nat.iterate advAuto (n / (2 * s.maxl.toNat)) s.color ∧
      t.duty.toNat = triangle s.maxl.toNat n ∧ t.phase = 1#2 ∧ t.mode = 2#2 ∧ t.entry = 2#2

/-- R116, R161.3: ConstantCycling with the dwell at 0 keeps COLOR while fewer than DWELL_TICKS strobes come, however the
polls fall between them, and the first poll after DWELL_TICKS strobes advances it. -/
def Obligations.DwellHoldsTheColor : Prop :=
  ∀ (ops : List Op) (s u : State), s.phase = 1#2 → s.mode = 0#2 → s.entry = 0#2 → s.dwell.toNat = 0 →
    s.params.wf = true → (∀ op ∈ ops, op = .tmr ∨ op = .seq) →
    (ops.count .tmr < s.params.dwellTicks → runOps ops s = some u →
      u.color = s.color ∧ u.dwell.toNat = ops.count .tmr) ∧
    (ops.count .tmr = s.params.dwellTicks - 1 →
      ∃ t, runOps (ops ++ [.tmr, .seq]) s = some t ∧ t.color = advAuto s.color ∧ t.color.toNat ≠ 0 ∧
        t.dwell.toNat = 0)

/-- R161.1, under R159's fairness: once a handler runs (PHASE is GUARD or WAIT) with MODE ≠ ENTRY, an EXIT or an RST
follows, unless further SVM ops first bring MODE back to ENTRY. R161.1 names no PHASE: that it speaks of these two, as R120
does, is the model's reading (log entry 14), because with PHASE = DISPATCH no handler runs, and what follows there is a
DISPATCH, which makes ENTRY = MODE (R111), or an RST: the second part. -/
def Obligations.FairRunsObserveAModeChange : Prop :=
  ∀ (st : Nat → State) (op : Nat → Op) (n : Nat), FairRun st op →
    (((st n).phase = 1#2 ∨ (st n).phase = 2#2) → (st n).mode ≠ (st n).entry →
      ∃ m, n ≤ m ∧
        ((op m = .seq ∧ take .seq (st m) = exec .seqExit (st m) ∧ (st (m + 1)).phase = 0#2) ∨ op m = .rst ∨
          (op m = .svm ∧ (st (m + 1)).mode = (st (m + 1)).entry))) ∧
    ((st n).phase = 0#2 →
      ∃ m, n ≤ m ∧
        ((op m = .seq ∧ take .seq (st m) = exec .seqDispatch (st m) ∧ (st (m + 1)).mode = (st (m + 1)).entry) ∨
          op m = .rst))

/-- R161.2, under R159's fairness: in PulseCycling with MAXL ≥ 1, from any pair on the ramp, in GUARD or WAIT, with no
further button op and no reset, however SEQ and TMR fall: every SEQ is a tick; after k further ops, of which seqCount are
ticks, COLOR has advanced once for every full period of 2 · MAXL ticks, counted from where the pair stood in its period;
and ticks never end, so that every number of them is reached and COLOR advances again and again. That the handler runs
already, and that "no further button ops" means no EDM, EDC, SVM, SVC and no RST either, is the model's reading (log
entry 14). -/
def Obligations.FairPulseCyclingAdvancesOncePerPeriod : Prop :=
  ∀ (st : Nat → State) (op : Nat → Op) (n : Nat), FairRun st op →
    ((st n).phase = 1#2 ∨ (st n).phase = 2#2) → (st n).mode = 2#2 → (st n).entry = 2#2 → 1 ≤ (st n).maxl.toNat →
    OnRamp (st n).duty (st n).toAdd (st n).maxl → (∀ m, n ≤ m → op m = .seq ∨ op m = .tmr) →
    (∀ k,
      (op (n + k) = .seq → take .seq (st (n + k)) = exec .seqTickPc (st (n + k))) ∧
      (st (n + k)).color =
        Nat.iterate advAuto
          ((rampPosition (st n).duty (st n).toAdd (st n).maxl + seqCount op n k) / (2 * (st n).maxl.toNat))
          (st n).color ∧
      (st (n + k)).duty.toNat =
        triangle (st n).maxl.toNat (rampPosition (st n).duty (st n).toAdd (st n).maxl + seqCount op n k)) ∧
    (∀ j, ∃ k, seqCount op n k = j)

/-- R161.3, under R159's fairness: in ConstantCycling with no further button op and no reset, COLOR advances again and
again, each time to a value from 1 to 7. The reading of "no further button ops" is log entry 14's. -/
def Obligations.FairConstantCyclingAdvancesForever : Prop :=
  ∀ (st : Nat → State) (op : Nat → Op) (n : Nat), FairRun st op → (st n).params.wf = true →
    (st n).phase = 1#2 → (st n).mode = 0#2 → (st n).entry = 0#2 → (∀ m, n ≤ m → op m = .seq ∨ op m = .tmr) →
    ∀ k, n ≤ k → ∃ m, k ≤ m ∧ op m = .seq ∧ (st (m + 1)).color = advAuto (st m).color ∧
      (st (m + 1)).color ≠ (st m).color ∧ (st (m + 1)).color.toNat ≠ 0
end

