-- ==== Sys2Proof/Laws/State.lean ====
section
/-!
SUPPORT. Laws/State.lean: what every field holds after each named update of the state, one lemma a field, so that no
proof unfolds an update.
-/
namespace Sys2Proof.Machine

variable (s : State)

/-! Latching a mode edge (R83). -/

@[simp] theorem State.latchEdge_mode_params : (s.latchEdge .mode).params = s.params := rfl
@[simp] theorem State.latchEdge_mode_mode : (s.latchEdge .mode).mode = s.mode := rfl
@[simp] theorem State.latchEdge_mode_color : (s.latchEdge .mode).color = s.color := rfl
@[simp] theorem State.latchEdge_mode_pendM : (s.latchEdge .mode).pendM = true := rfl
@[simp] theorem State.latchEdge_mode_pendC : (s.latchEdge .mode).pendC = s.pendC := rfl
@[simp] theorem State.latchEdge_mode_phase : (s.latchEdge .mode).phase = s.phase := rfl
@[simp] theorem State.latchEdge_mode_entry : (s.latchEdge .mode).entry = s.entry := rfl
@[simp] theorem State.latchEdge_mode_duty : (s.latchEdge .mode).duty = s.duty := rfl
@[simp] theorem State.latchEdge_mode_toAdd : (s.latchEdge .mode).toAdd = s.toAdd := rfl
@[simp] theorem State.latchEdge_mode_maxl : (s.latchEdge .mode).maxl = s.maxl := rfl
@[simp] theorem State.latchEdge_mode_dwell : (s.latchEdge .mode).dwell = s.dwell := rfl
@[simp] theorem State.latchEdge_mode_ch : (s.latchEdge .mode).ch = s.ch := rfl
@[simp] theorem State.latchEdge_mode_faulted : (s.latchEdge .mode).faulted = s.faulted := rfl
@[simp] theorem State.latchEdge_mode_refused : (s.latchEdge .mode).refused = s.refused := rfl
@[simp] theorem State.latchEdge_mode_refusals : (s.latchEdge .mode).refusals = s.refusals := rfl
@[simp] theorem State.latchEdge_mode_trace : (s.latchEdge .mode).trace = s.trace := rfl
@[simp] theorem State.latchEdge_mode_pos : (s.latchEdge .mode).pos = s.pos := rfl

/-! Latching a colour edge (R84). -/

@[simp] theorem State.latchEdge_color_params : (s.latchEdge .color).params = s.params := rfl
@[simp] theorem State.latchEdge_color_mode : (s.latchEdge .color).mode = s.mode := rfl
@[simp] theorem State.latchEdge_color_color : (s.latchEdge .color).color = s.color := rfl
@[simp] theorem State.latchEdge_color_pendM : (s.latchEdge .color).pendM = s.pendM := rfl
@[simp] theorem State.latchEdge_color_pendC : (s.latchEdge .color).pendC = true := rfl
@[simp] theorem State.latchEdge_color_phase : (s.latchEdge .color).phase = s.phase := rfl
@[simp] theorem State.latchEdge_color_entry : (s.latchEdge .color).entry = s.entry := rfl
@[simp] theorem State.latchEdge_color_duty : (s.latchEdge .color).duty = s.duty := rfl
@[simp] theorem State.latchEdge_color_toAdd : (s.latchEdge .color).toAdd = s.toAdd := rfl
@[simp] theorem State.latchEdge_color_maxl : (s.latchEdge .color).maxl = s.maxl := rfl
@[simp] theorem State.latchEdge_color_dwell : (s.latchEdge .color).dwell = s.dwell := rfl
@[simp] theorem State.latchEdge_color_ch : (s.latchEdge .color).ch = s.ch := rfl
@[simp] theorem State.latchEdge_color_faulted : (s.latchEdge .color).faulted = s.faulted := rfl
@[simp] theorem State.latchEdge_color_refused : (s.latchEdge .color).refused = s.refused := rfl
@[simp] theorem State.latchEdge_color_refusals : (s.latchEdge .color).refusals = s.refusals := rfl
@[simp] theorem State.latchEdge_color_trace : (s.latchEdge .color).trace = s.trace := rfl
@[simp] theorem State.latchEdge_color_pos : (s.latchEdge .color).pos = s.pos := rfl

/-! Servicing the mode source (R85). -/

@[simp] theorem State.service_mode_params : (s.service .mode).params = s.params := rfl
@[simp] theorem State.service_mode_mode : (s.service .mode).mode = advMode s.mode := rfl
@[simp] theorem State.service_mode_color : (s.service .mode).color = s.color := rfl
@[simp] theorem State.service_mode_pendM : (s.service .mode).pendM = false := rfl
@[simp] theorem State.service_mode_pendC : (s.service .mode).pendC = s.pendC := rfl
@[simp] theorem State.service_mode_phase : (s.service .mode).phase = s.phase := rfl
@[simp] theorem State.service_mode_entry : (s.service .mode).entry = s.entry := rfl
@[simp] theorem State.service_mode_duty : (s.service .mode).duty = s.duty := rfl
@[simp] theorem State.service_mode_toAdd : (s.service .mode).toAdd = s.toAdd := rfl
@[simp] theorem State.service_mode_maxl : (s.service .mode).maxl = s.maxl := rfl
@[simp] theorem State.service_mode_dwell : (s.service .mode).dwell = s.dwell := rfl
@[simp] theorem State.service_mode_ch : (s.service .mode).ch = s.ch := rfl
@[simp] theorem State.service_mode_faulted : (s.service .mode).faulted = s.faulted := rfl
@[simp] theorem State.service_mode_refused : (s.service .mode).refused = s.refused := rfl
@[simp] theorem State.service_mode_refusals : (s.service .mode).refusals = s.refusals := rfl
@[simp] theorem State.service_mode_trace : (s.service .mode).trace = s.trace := rfl
@[simp] theorem State.service_mode_pos : (s.service .mode).pos = s.pos := rfl

/-! Servicing the colour source (R86). -/

@[simp] theorem State.service_color_params : (s.service .color).params = s.params := rfl
@[simp] theorem State.service_color_mode : (s.service .color).mode = s.mode := rfl
@[simp] theorem State.service_color_color : (s.service .color).color = advBtn s.color := rfl
@[simp] theorem State.service_color_pendM : (s.service .color).pendM = s.pendM := rfl
@[simp] theorem State.service_color_pendC : (s.service .color).pendC = false := rfl
@[simp] theorem State.service_color_phase : (s.service .color).phase = s.phase := rfl
@[simp] theorem State.service_color_entry : (s.service .color).entry = s.entry := rfl
@[simp] theorem State.service_color_duty : (s.service .color).duty = s.duty := rfl
@[simp] theorem State.service_color_toAdd : (s.service .color).toAdd = s.toAdd := rfl
@[simp] theorem State.service_color_maxl : (s.service .color).maxl = s.maxl := rfl
@[simp] theorem State.service_color_dwell : (s.service .color).dwell = s.dwell := rfl
@[simp] theorem State.service_color_ch : (s.service .color).ch = s.ch := rfl
@[simp] theorem State.service_color_faulted : (s.service .color).faulted = s.faulted := rfl
@[simp] theorem State.service_color_refused : (s.service .color).refused = s.refused := rfl
@[simp] theorem State.service_color_refusals : (s.service .color).refusals = s.refusals := rfl
@[simp] theorem State.service_color_trace : (s.service .color).trace = s.trace := rfl
@[simp] theorem State.service_color_pos : (s.service .color).pos = s.pos := rfl

/-! Setting FAULTED (R117). -/

@[simp] theorem State.markFaulted_params : (s.markFaulted).params = s.params := rfl
@[simp] theorem State.markFaulted_mode : (s.markFaulted).mode = s.mode := rfl
@[simp] theorem State.markFaulted_color : (s.markFaulted).color = s.color := rfl
@[simp] theorem State.markFaulted_pendM : (s.markFaulted).pendM = s.pendM := rfl
@[simp] theorem State.markFaulted_pendC : (s.markFaulted).pendC = s.pendC := rfl
@[simp] theorem State.markFaulted_phase : (s.markFaulted).phase = s.phase := rfl
@[simp] theorem State.markFaulted_entry : (s.markFaulted).entry = s.entry := rfl
@[simp] theorem State.markFaulted_duty : (s.markFaulted).duty = s.duty := rfl
@[simp] theorem State.markFaulted_toAdd : (s.markFaulted).toAdd = s.toAdd := rfl
@[simp] theorem State.markFaulted_maxl : (s.markFaulted).maxl = s.maxl := rfl
@[simp] theorem State.markFaulted_dwell : (s.markFaulted).dwell = s.dwell := rfl
@[simp] theorem State.markFaulted_ch : (s.markFaulted).ch = s.ch := rfl
@[simp] theorem State.markFaulted_faulted : (s.markFaulted).faulted = true := rfl
@[simp] theorem State.markFaulted_refused : (s.markFaulted).refused = s.refused := rfl
@[simp] theorem State.markFaulted_refusals : (s.markFaulted).refusals = s.refusals := rfl
@[simp] theorem State.markFaulted_trace : (s.markFaulted).trace = s.trace := rfl
@[simp] theorem State.markFaulted_pos : (s.markFaulted).pos = s.pos := rfl

/-! Setting REFUSED (R61). -/

@[simp] theorem State.markRefused_params (code : OpCode) : (s.markRefused code).params = s.params := rfl
@[simp] theorem State.markRefused_mode (code : OpCode) : (s.markRefused code).mode = s.mode := rfl
@[simp] theorem State.markRefused_color (code : OpCode) : (s.markRefused code).color = s.color := rfl
@[simp] theorem State.markRefused_pendM (code : OpCode) : (s.markRefused code).pendM = s.pendM := rfl
@[simp] theorem State.markRefused_pendC (code : OpCode) : (s.markRefused code).pendC = s.pendC := rfl
@[simp] theorem State.markRefused_phase (code : OpCode) : (s.markRefused code).phase = s.phase := rfl
@[simp] theorem State.markRefused_entry (code : OpCode) : (s.markRefused code).entry = s.entry := rfl
@[simp] theorem State.markRefused_duty (code : OpCode) : (s.markRefused code).duty = s.duty := rfl
@[simp] theorem State.markRefused_toAdd (code : OpCode) : (s.markRefused code).toAdd = s.toAdd := rfl
@[simp] theorem State.markRefused_maxl (code : OpCode) : (s.markRefused code).maxl = s.maxl := rfl
@[simp] theorem State.markRefused_dwell (code : OpCode) : (s.markRefused code).dwell = s.dwell := rfl
@[simp] theorem State.markRefused_ch (code : OpCode) : (s.markRefused code).ch = s.ch := rfl
@[simp] theorem State.markRefused_faulted (code : OpCode) : (s.markRefused code).faulted = s.faulted := rfl
@[simp] theorem State.markRefused_refused (code : OpCode) : (s.markRefused code).refused = true := rfl
@[simp] theorem State.markRefused_refusals (code : OpCode) :
    (s.markRefused code).refusals = s.refusals ++ [{ pos := s.pos, code := code }] := rfl
@[simp] theorem State.markRefused_trace (code : OpCode) : (s.markRefused code).trace = s.trace := rfl
@[simp] theorem State.markRefused_pos (code : OpCode) : (s.markRefused code).pos = s.pos := rfl

/-! Resetting the registers (R150). -/

@[simp] theorem State.resetRegisters_params : (s.resetRegisters).params = s.params := rfl
@[simp] theorem State.resetRegisters_mode : (s.resetRegisters).mode = 0#2 := rfl
@[simp] theorem State.resetRegisters_color : (s.resetRegisters).color = 1#3 := rfl
@[simp] theorem State.resetRegisters_pendM : (s.resetRegisters).pendM = false := rfl
@[simp] theorem State.resetRegisters_pendC : (s.resetRegisters).pendC = false := rfl
@[simp] theorem State.resetRegisters_phase : (s.resetRegisters).phase = Phase.dispatch := rfl
@[simp] theorem State.resetRegisters_entry : (s.resetRegisters).entry = 0#2 := rfl
@[simp] theorem State.resetRegisters_duty : (s.resetRegisters).duty = 0#s.params.dutyWidth := rfl
@[simp] theorem State.resetRegisters_toAdd : (s.resetRegisters).toAdd = true := rfl
@[simp] theorem State.resetRegisters_maxl : (s.resetRegisters).maxl = 0#s.params.dutyWidth := rfl
@[simp] theorem State.resetRegisters_dwell : (s.resetRegisters).dwell = 0#s.params.dwellWidth := rfl
@[simp] theorem State.resetRegisters_ch : (s.resetRegisters).ch = zeroAll s.params.dutyWidth := rfl
@[simp] theorem State.resetRegisters_faulted : (s.resetRegisters).faulted = s.faulted := rfl
@[simp] theorem State.resetRegisters_refused : (s.resetRegisters).refused = s.refused := rfl
@[simp] theorem State.resetRegisters_refusals : (s.resetRegisters).refusals = s.refusals := rfl
@[simp] theorem State.resetRegisters_trace : (s.resetRegisters).trace = s.trace := rfl
@[simp] theorem State.resetRegisters_pos : (s.resetRegisters).pos = s.pos := rfl

/-! Moving the schedule past a code. -/

@[simp] theorem State.advance_params : (s.advance).params = s.params := rfl
@[simp] theorem State.advance_mode : (s.advance).mode = s.mode := rfl
@[simp] theorem State.advance_color : (s.advance).color = s.color := rfl
@[simp] theorem State.advance_pendM : (s.advance).pendM = s.pendM := rfl
@[simp] theorem State.advance_pendC : (s.advance).pendC = s.pendC := rfl
@[simp] theorem State.advance_phase : (s.advance).phase = s.phase := rfl
@[simp] theorem State.advance_entry : (s.advance).entry = s.entry := rfl
@[simp] theorem State.advance_duty : (s.advance).duty = s.duty := rfl
@[simp] theorem State.advance_toAdd : (s.advance).toAdd = s.toAdd := rfl
@[simp] theorem State.advance_maxl : (s.advance).maxl = s.maxl := rfl
@[simp] theorem State.advance_dwell : (s.advance).dwell = s.dwell := rfl
@[simp] theorem State.advance_ch : (s.advance).ch = s.ch := rfl
@[simp] theorem State.advance_faulted : (s.advance).faulted = s.faulted := rfl
@[simp] theorem State.advance_refused : (s.advance).refused = s.refused := rfl
@[simp] theorem State.advance_refusals : (s.advance).refusals = s.refusals := rfl
@[simp] theorem State.advance_trace : (s.advance).trace = s.trace.tail := rfl
@[simp] theorem State.advance_pos : (s.advance).pos = s.pos + 1 := rfl

/-! Placing a code where the step fetches it. -/

@[simp] theorem State.placeCode_params (n w : Nat) : (s.placeCode n w).params = s.params := rfl
@[simp] theorem State.placeCode_mode (n w : Nat) : (s.placeCode n w).mode = s.mode := rfl
@[simp] theorem State.placeCode_color (n w : Nat) : (s.placeCode n w).color = s.color := rfl
@[simp] theorem State.placeCode_pendM (n w : Nat) : (s.placeCode n w).pendM = s.pendM := rfl
@[simp] theorem State.placeCode_pendC (n w : Nat) : (s.placeCode n w).pendC = s.pendC := rfl
@[simp] theorem State.placeCode_phase (n w : Nat) : (s.placeCode n w).phase = s.phase := rfl
@[simp] theorem State.placeCode_entry (n w : Nat) : (s.placeCode n w).entry = s.entry := rfl
@[simp] theorem State.placeCode_duty (n w : Nat) : (s.placeCode n w).duty = s.duty := rfl
@[simp] theorem State.placeCode_toAdd (n w : Nat) : (s.placeCode n w).toAdd = s.toAdd := rfl
@[simp] theorem State.placeCode_maxl (n w : Nat) : (s.placeCode n w).maxl = s.maxl := rfl
@[simp] theorem State.placeCode_dwell (n w : Nat) : (s.placeCode n w).dwell = s.dwell := rfl
@[simp] theorem State.placeCode_ch (n w : Nat) : (s.placeCode n w).ch = s.ch := rfl
@[simp] theorem State.placeCode_faulted (n w : Nat) : (s.placeCode n w).faulted = s.faulted := rfl
@[simp] theorem State.placeCode_refused (n w : Nat) : (s.placeCode n w).refused = s.refused := rfl
@[simp] theorem State.placeCode_refusals (n w : Nat) : (s.placeCode n w).refusals = s.refusals := rfl
@[simp] theorem State.placeCode_trace (n w : Nat) : (s.placeCode n w).trace = codeOfWord n w :: s.trace.tail := rfl
@[simp] theorem State.placeCode_pos (n w : Nat) : (s.placeCode n w).pos = s.pos := rfl

/-- The control state after an update that leaves PHASE, MODE and ENTRY. -/
@[simp] theorem State.advance_control : s.advance.control = s.control := rfl

@[simp] theorem State.markRefused_control (code : OpCode) : (s.markRefused code).control = s.control := rfl

@[simp] theorem State.markFaulted_control : s.markFaulted.control = s.control := rfl

@[simp] theorem State.latchEdge_control (src : Source) : (s.latchEdge src).control = s.control := by
  cases src <;> rfl

@[simp] theorem State.advance_enabled (op : Op) : s.advance.enabled op = s.enabled op := by cases op <;> rfl

@[simp] theorem State.advance_scaledMax : s.advance.scaledMax = s.scaledMax := rfl

/-- Resetting the registers of a state that reset left changes nothing (R150). -/
theorem State.resetRegisters_resetWith (p : Params) : (State.resetWith p).resetRegisters = State.resetWith p := rfl

/-- What RST leaves is the reset state of the same parameters, but for the marks and the schedule (R32, R150). -/
theorem State.resetRegisters_eq :
    s.resetRegisters =
      { State.resetWith s.params with
        faulted := s.faulted, refused := s.refused, refusals := s.refusals, trace := s.trace, pos := s.pos } := rfl

end Sys2Proof.Machine
end

