-- ==== Sys2Proof/Laws/Ops.lean ====
section
/-!
SUPPORT. Laws/Ops.lean: for each shared function and operation, what it can do, said once.
-/
namespace Sys2Proof.Machine

/-! ## Ending a meaning -/

/-- A guarded arm answers a next state exactly where its condition holds, and then its own effect. -/
theorem State.onArm_eq_next {s a t : State} {c : Prop} [Decidable c] :
    s.onArm c a = .next t ↔ c ∧ t = a := by
  unfold State.onArm
  by_cases h : c
  · simp [h, eq_comm]
  · simp [h]

theorem State.onArm_pos {s a : State} {c : Prop} [Decidable c] (h : c) : s.onArm c a = .next a := by
  simp [State.onArm, h]

theorem State.onArm_neg {s a : State} {c : Prop} [Decidable c] (h : ¬c) :
    s.onArm c a = .fault (.notThisArm s.pos) := by simp [State.onArm, h]

/-- An op answers a next state exactly where it is enabled, and then its own effect (R10). -/
theorem State.whenEnabled_eq_next {s a t : State} {op : Op} :
    s.whenEnabled op a = .next t ↔ s.enabled op = true ∧ t = a := by
  unfold State.whenEnabled
  by_cases h : s.enabled op = true
  · simp [h, eq_comm]
  · simp [h]

/-- An op that is not enabled is held (R10, R130). -/
theorem State.whenEnabled_held {s a : State} {op : Op} (h : s.enabled op = false) :
    s.whenEnabled op a = .fault (.held op s.pos) := by simp [State.whenEnabled, h]

/-! ## Codes and the selection of an arm -/

@[simp] theorem opOf_code (op : Op) : opOf op.code = some op := by cases op <;> decide

/-- The only code of an op is its own (R60). -/
theorem opOf_eq_some : ∀ {code : OpCode} {op : Op}, opOf code = some op → code = op.code := by
  intro code op h
  revert h
  revert code
  cases op <;> decide

/-- A code that selects no op is reserved (R61). -/
theorem opOf_eq_none : ∀ {code : OpCode}, opOf code = none ↔ code = 0#4 ∨ 8 ≤ code.toNat := by decide

/-- A reserved code other than 0000 has bit 3 set. -/
theorem reserved_bit : ∀ {code : OpCode}, opOf code = none → code ≠ 0#4 → code.getLsbD 3 = true := by decide

/-- Every two-bit number is one of four. -/
theorem two_bits (x : BitVec 2) : x = 0#2 ∨ x = 1#2 ∨ x = 2#2 ∨ x = 3#2 := by
  revert x; decide

/-- The arm SEQ takes in each phase (R62). -/
theorem seqArm_cases (c : Control) :
    (c.phase = 0#2 ∧ seqArm c = .ok .seqDispatch) ∨
    (c.phase = 1#2 ∧ c.mode ≠ c.entry ∧ seqArm c = .ok .seqExit) ∨
    (c.phase = 1#2 ∧ c.mode = c.entry ∧ c.entry = 0#2 ∧ seqArm c = .ok .seqTickCc) ∨
    (c.phase = 1#2 ∧ c.mode = c.entry ∧ c.entry = 1#2 ∧ seqArm c = .ok .seqTickCs) ∨
    (c.phase = 1#2 ∧ c.mode = c.entry ∧ c.entry = 2#2 ∧ seqArm c = .ok .seqTickPc) ∨
    (c.phase = 1#2 ∧ c.mode = c.entry ∧ c.entry = 3#2 ∧ seqArm c = .ok .seqTickPs) ∨
    (c.phase = 2#2 ∧ seqArm c = .error .seq) ∨
    (c.phase = 3#2 ∧ seqArm c = .ok .seqBadphase) := by
  obtain ⟨p, m, e⟩ := c
  by_cases h : m = e
  · subst h
    rcases two_bits p with rfl | rfl | rfl | rfl <;> rcases two_bits m with rfl | rfl | rfl | rfl <;> simp [seqArm]
  · rcases two_bits p with rfl | rfl | rfl | rfl <;> simp [seqArm, h]

/-! ## Enabling -/

@[simp] theorem State.enabled_rst (s : State) : s.enabled .rst = true := rfl
@[simp] theorem State.enabled_tmr (s : State) : s.enabled .tmr = true := rfl
@[simp] theorem State.enabled_edm (s : State) : s.enabled .edm = true := rfl
@[simp] theorem State.enabled_edc (s : State) : s.enabled .edc = true := rfl
@[simp] theorem State.enabled_svm (s : State) : s.enabled .svm = s.pendM := rfl
@[simp] theorem State.enabled_svc (s : State) : s.enabled .svc = s.pendC := rfl
theorem State.enabled_seq (s : State) : s.enabled .seq = true ↔ s.phase ≠ 2#2 := by simp [State.enabled]

/-- The free choice is one of the enabled ops, whatever its value (R11). -/
theorem State.freeOp_enabled (s : State) : s.enabled s.freeOp = true := by
  have hmem : Op.tmr ∈ s.enabledOps := by simp [State.enabledOps]
  have hlt : Config.freeChoice s.pos % s.enabledOps.length < s.enabledOps.length :=
    Nat.mod_lt _ (List.length_pos_of_mem hmem)
  have h : s.freeOp ∈ s.enabledOps := by
    unfold State.freeOp
    rw [List.getD_eq_getElem _ _ hlt]
    exact List.getElem_mem hlt
  exact (List.mem_filter.mp h).2

/-! ## Advances, duty step and drive -/

/-- An autonomous advance never selects "all off", and always changes the colour (R82). -/
theorem advAuto_ne : ∀ c : BitVec 3, advAuto c ≠ 0#3 ∧ advAuto c ≠ c := by decide

/-- ADV_AUTO in numbers (R82). -/
theorem advAuto_eq : ∀ c : BitVec 3, advAuto c = BitVec.ofNat 3 (if c.toNat = 7 then 1 else c.toNat + 1) := by decide

/-- A maximum of 0 holds the pair (R91, R95). -/
theorem dutyStep_zero {w : Nat} (d : BitVec w) (t : Bool) : dutyStep d t 0#w = (d, t) := by
  simp [dutyStep, dutyNext]

/-- A step up from on the ramp: one more, turning exactly at the maximum (R93). -/
theorem dutyStep_up {w : Nat} {d m : BitVec w} (h : d.toNat + 1 ≤ m.toNat) :
    (dutyStep d true m).1.toNat = d.toNat + 1 ∧ ((dutyStep d true m).2 = true ↔ d.toNat + 1 < m.toNat) := by
  have hm : m ≠ 0#w := by rintro rfl; simp at h
  have h1 : (d + 1#w).toNat = d.toNat + 1 := by
    have hlt := m.isLt
    have h0 : w ≠ 0 := by rintro rfl; simp at hlt; omega
    rw [BitVec.toNat_add, BitVec.toNat_ofNat, Nat.mod_eq_of_lt (Nat.one_lt_two_pow h0)]
    exact Nat.mod_eq_of_lt (by omega)
  simp only [dutyStep, dutyNext, hm, if_false, if_true, h1, true_and]
  rw [Bool.not_eq_true', decide_eq_false_iff_not, ← BitVec.toNat_inj, h1]
  omega

/-- A step down from on the ramp: one less, turning exactly at 0 (R93). -/
theorem dutyStep_down {w : Nat} {d m : BitVec w} (h1 : 1 ≤ d.toNat) (h2 : d.toNat ≤ m.toNat) :
    (dutyStep d false m).1.toNat = d.toNat - 1 ∧ ((dutyStep d false m).2 = true ↔ d.toNat = 1) := by
  have hm : m ≠ 0#w := by rintro rfl; simp at h2; omega
  have h3 : (d - 1#w).toNat = d.toNat - 1 := by
    have hlt := d.isLt
    have h0 : w ≠ 0 := by rintro rfl; simp at hlt; omega
    have h1w : (1#w).toNat = 1 := by rw [BitVec.toNat_ofNat, Nat.mod_eq_of_lt (Nat.one_lt_two_pow h0)]
    rw [BitVec.toNat_sub_of_le (by rw [BitVec.le_def, h1w]; exact h1), h1w]
  simp only [dutyStep, dutyNext, hm, if_false, h3, true_and, Bool.false_eq_true]
  rw [decide_eq_true_iff, ← BitVec.toNat_inj, h3, BitVec.toNat_ofNat, Nat.zero_mod]
  omega

/-- The ramp is closed under its step (R93). -/
theorem OnRamp.step {w : Nat} {d m : BitVec w} {t : Bool} (h : OnRamp d t m) :
    OnRamp (dutyStep d t m).1 (dutyStep d t m).2 m := by
  rcases h with ⟨rfl, h⟩ | ⟨rfl, h1, h2⟩
  · obtain ⟨hd, ht⟩ := dutyStep_up h
    cases hb : (dutyStep d true m).2 <;> simp only [hb] at ht ⊢ <;> simp only [OnRamp, hd] <;> simp at ht ⊢ <;> omega
  · obtain ⟨hd, ht⟩ := dutyStep_down h1 h2
    cases hb : (dutyStep d false m).2 <;> simp only [hb] at ht ⊢ <;> simp only [OnRamp, hd] <;> simp at ht ⊢ <;> omega

theorem OnRamp.le {w : Nat} {d m : BitVec w} {t : Bool} (h : OnRamp d t m) : d.toNat ≤ m.toNat := by
  rcases h with ⟨_, h⟩ | ⟨_, _, h⟩ <;> omega

/-- Each channel after DRIVE (R100). -/
@[simp] theorem drive_get {w : Nat} (c : BitVec 3) (v : BitVec w) (i : Fin 3) :
    (drive c v).get i = if c.getLsbD i.val then v else 0#w := by
  fin_cases i <;> rfl

/-- Each channel after ZERO_ALL (R101). -/
@[simp] theorem zeroAll_get (w : Nat) (i : Fin 3) : (zeroAll w).get i = 0#w := by fin_cases i <;> rfl

/-- Driving 0 writes 0 to every channel, whatever the mask (R100). -/
theorem drive_zero {w : Nat} (c : BitVec 3) : drive c 0#w = zeroAll w := by
  simp [drive, zeroAll, driveLane]

end Sys2Proof.Machine
end

