-- ==== Sys2Proof/Laws/PerInstr.lean ====
section
/-!
SUPPORT. Laws/PerInstr.lean: the statements made of every instruction, one lemma a constructor: an instruction is read
back from its own code.
-/
namespace Sys2Proof.Laws.RoundTrip

/-- A well-formed row is decoded from its own code, in every control state that selects it (R60 to R62). -/
def Statement (i : Instr) : Prop :=
  i.wf = true → ∀ c : Control, i.selectedBy c = true → decode (encode i) c = .ok i

theorem rst : Statement .rst := fun _ _ _ => rfl

theorem seqDispatch : Statement .seqDispatch := by
  intro _ c h
  simp_all [Instr.selectedBy, encode, decode, opOf, opTable, seqArm]

theorem seqExit : Statement .seqExit := by
  intro _ c h
  simp_all [Instr.selectedBy, encode, decode, opOf, opTable, seqArm]

theorem seqTickCc : Statement .seqTickCc := by
  intro _ c h
  simp_all [Instr.selectedBy, encode, decode, opOf, opTable, seqArm]

theorem seqTickCs : Statement .seqTickCs := by
  intro _ c h
  simp_all [Instr.selectedBy, encode, decode, opOf, opTable, seqArm]

theorem seqTickPc : Statement .seqTickPc := by
  intro _ c h
  simp_all [Instr.selectedBy, encode, decode, opOf, opTable, seqArm]

theorem seqTickPs : Statement .seqTickPs := by
  intro _ c h
  simp_all [Instr.selectedBy, encode, decode, opOf, opTable, seqArm]

theorem seqBadphase : Statement .seqBadphase := by
  intro _ c h
  simp_all [Instr.selectedBy, encode, decode, opOf, opTable, seqArm]

theorem tmr : Statement .tmr := fun _ _ _ => rfl

theorem edm : Statement .edm := fun _ _ _ => rfl

theorem edc : Statement .edc := fun _ _ _ => rfl

theorem svm : Statement .svm := fun _ _ _ => rfl

theorem svc : Statement .svc := fun _ _ _ => rfl

theorem reservedZero : Statement .reservedZero := fun _ _ _ => rfl

theorem reservedHigh (code : OpCode) : Statement (.reservedHigh code) := by
  intro h c _
  have hr : ∀ k : OpCode, k.getLsbD 3 = true → opOf k = none ∧ k ≠ 0#4 := by decide
  obtain ⟨h1, h2⟩ := hr code h
  simp [encode, decode, h1, h2]

end Sys2Proof.Laws.RoundTrip
end

