-- ==== Sys2Proof/Laws/Exec.lean ====
section
/-!
SUPPORT. Laws/Exec.lean: what taking an op and a step can do, said once: the cases a proof about either goes through.
-/
namespace Sys2Proof.Machine

/-! ## What each instruction can do -/

/-- RST always has its step (R150). -/
theorem exec_rst (s : State) : exec .rst s = .next s.resetRegisters := rfl

/-- An edge op always has its step (R83, R84). -/
theorem exec_edm (s : State) : exec .edm s = .next (s.latchEdge .mode) := rfl
theorem exec_edc (s : State) : exec .edc s = .next (s.latchEdge .color) := rfl

/-- A reserved code always records its refusal (R61). -/
theorem exec_reservedZero (s : State) : exec .reservedZero s = .next (s.markRefused 0#4) := rfl
theorem exec_reservedHigh (code : OpCode) (s : State) :
    exec (.reservedHigh code) s = .next (s.markRefused code) := rfl

/-- A service op has its step exactly where its latch is set (R85, R86). -/
theorem exec_svm_eq_next {s t : State} : exec .svm s = .next t ↔ s.pendM = true ∧ t = s.service .mode :=
  State.whenEnabled_eq_next
theorem exec_svc_eq_next {s t : State} : exec .svc s = .next t ↔ s.pendC = true ∧ t = s.service .color :=
  State.whenEnabled_eq_next

/-- TMR's three cases (R118). -/
theorem exec_tmr_cases (s : State) :
    (s.phase = 2#2 ∧ exec .tmr s = .next { s with phase := 1#2 }) ∨
    (s.phase = 1#2 ∧ s.entry = 0#2 ∧ exec .tmr s = .next { s with dwell := s.dwellTick }) ∨
    (s.phase ≠ 2#2 ∧ ¬(s.phase = 1#2 ∧ s.entry = 0#2) ∧ exec .tmr s = .next s) := by
  simp only [exec, execTmr, Phase.wait, Phase.guard, Mode.constantCycling]
  by_cases h2 : s.phase = 2#2
  · exact .inl ⟨h2, by rw [if_pos h2]⟩
  · by_cases h1 : s.phase = 1#2 ∧ s.entry = 0#2
    · exact .inr (.inl ⟨h1.1, h1.2, by rw [if_neg h2, if_pos h1]⟩)
    · exact .inr (.inr ⟨h2, h1, by rw [if_neg h2, if_neg h1]⟩)

/-- Each arm of SEQ has its step exactly where its condition holds (R62, R111 to R117). -/
theorem exec_seqDispatch_eq_next {s t : State} :
    exec .seqDispatch s = .next t ↔ s.phase = 0#2 ∧ t = { s with
      entry := s.mode, duty := 0#s.params.dutyWidth, toAdd := true, maxl := s.scaledMax,
      dwell := 0#s.params.dwellWidth, phase := 1#2 } := State.onArm_eq_next
theorem exec_seqExit_eq_next {s t : State} :
    exec .seqExit s = .next t ↔ (s.phase = 1#2 ∧ s.mode ≠ s.entry) ∧ t = { s with
      ch := if Mode.isPulse s.entry then zeroAll s.params.dutyWidth else s.ch, phase := 0#2 } := State.onArm_eq_next
theorem exec_seqTickPs_eq_next {s t : State} :
    exec .seqTickPs s = .next t ↔ (s.phase = 1#2 ∧ s.mode = s.entry ∧ s.entry = 3#2) ∧ t = { s with
      duty := s.rampStep.1, toAdd := s.rampStep.2, ch := drive s.color s.rampStep.1, phase := 2#2 } :=
  State.onArm_eq_next
theorem exec_seqTickPc_eq_next {s t : State} :
    exec .seqTickPc s = .next t ↔ (s.phase = 1#2 ∧ s.mode = s.entry ∧ s.entry = 2#2) ∧ t = { s with
      duty := s.rampStep.1, toAdd := s.rampStep.2, color := s.colorAfterPulse,
      ch := drive s.colorAfterPulse s.rampStep.1, phase := 2#2 } := State.onArm_eq_next
theorem exec_seqTickCs_eq_next {s t : State} :
    exec .seqTickCs s = .next t ↔ (s.phase = 1#2 ∧ s.mode = s.entry ∧ s.entry = 1#2) ∧
      t = { s with ch := drive s.color s.maxl, phase := 1#2 } := State.onArm_eq_next
theorem exec_seqTickCc_eq_next {s t : State} :
    exec .seqTickCc s = .next t ↔ (s.phase = 1#2 ∧ s.mode = s.entry ∧ s.entry = 0#2) ∧ t = { s with
      color := s.colorAfterPoll, dwell := if s.dwellReached then 0#s.params.dwellWidth else s.dwell,
      ch := drive s.colorAfterPoll s.maxl, phase := 1#2 } := State.onArm_eq_next
theorem exec_seqBadphase_eq_next {s t : State} :
    exec .seqBadphase s = .next t ↔ s.phase = 3#2 ∧ t = s.markFaulted := State.onArm_eq_next

/-! ## Taking an op -/

theorem take_eq_takeCode (op : Op) (s : State) : take op s = takeCode op.code s := rfl

/-- Every op but SEQ is the instruction of its own name, whatever the control state. -/
theorem take_rst (s : State) : take .rst s = exec .rst s := rfl
theorem take_tmr (s : State) : take .tmr s = exec .tmr s := rfl
theorem take_edm (s : State) : take .edm s = exec .edm s := rfl
theorem take_edc (s : State) : take .edc s = exec .edc s := rfl
theorem take_svm (s : State) : take .svm s = exec .svm s := rfl
theorem take_svc (s : State) : take .svc s = exec .svc s := rfl

/-- A service op taken: its step exactly where its latch is set (R85, R86). -/
theorem take_svm_eq_next {s t : State} : take .svm s = .next t ↔ s.pendM = true ∧ t = s.service .mode :=
  exec_svm_eq_next
theorem take_svc_eq_next {s t : State} : take .svc s = .next t ↔ s.pendC = true ∧ t = s.service .color :=
  exec_svc_eq_next
theorem take_svm_held {s : State} (h : s.pendM = false) : take .svm s = .fault (.held .svm s.pos) :=
  State.whenEnabled_held h
theorem take_svc_held {s : State} (h : s.pendC = false) : take .svc s = .fault (.held .svc s.pos) :=
  State.whenEnabled_held h

/-- What SEQ does in each phase: the arm R62 selects, and in WAIT nothing. -/
theorem take_seq_cases (s : State) :
    (s.phase = 0#2 ∧ take .seq s = exec .seqDispatch s) ∨
    (s.phase = 1#2 ∧ s.mode ≠ s.entry ∧ take .seq s = exec .seqExit s) ∨
    (s.phase = 1#2 ∧ s.mode = s.entry ∧ s.entry = 0#2 ∧ take .seq s = exec .seqTickCc s) ∨
    (s.phase = 1#2 ∧ s.mode = s.entry ∧ s.entry = 1#2 ∧ take .seq s = exec .seqTickCs s) ∨
    (s.phase = 1#2 ∧ s.mode = s.entry ∧ s.entry = 2#2 ∧ take .seq s = exec .seqTickPc s) ∨
    (s.phase = 1#2 ∧ s.mode = s.entry ∧ s.entry = 3#2 ∧ take .seq s = exec .seqTickPs s) ∨
    (s.phase = 2#2 ∧ take .seq s = .fault (.held .seq s.pos)) ∨
    (s.phase = 3#2 ∧ take .seq s = exec .seqBadphase s) := by
  have key : take .seq s =
      match seqArm s.control with
      | .ok i => exec i s
      | .error op => .fault (.held op s.pos) := rfl
  rw [key]
  rcases seqArm_cases s.control with ⟨h, e⟩ | ⟨h, h1, e⟩ | ⟨h, h1, h2, e⟩ | ⟨h, h1, h2, e⟩ | ⟨h, h1, h2, e⟩ |
    ⟨h, h1, h2, e⟩ | ⟨h, e⟩ | ⟨h, e⟩ <;> rw [e]
  · exact .inl ⟨h, rfl⟩
  · exact .inr (.inl ⟨h, h1, rfl⟩)
  · exact .inr (.inr (.inl ⟨h, h1, h2, rfl⟩))
  · exact .inr (.inr (.inr (.inl ⟨h, h1, h2, rfl⟩)))
  · exact .inr (.inr (.inr (.inr (.inl ⟨h, h1, h2, rfl⟩))))
  · exact .inr (.inr (.inr (.inr (.inr (.inl ⟨h, h1, h2, rfl⟩)))))
  · exact .inr (.inr (.inr (.inr (.inr (.inr (.inl ⟨h, rfl⟩))))))
  · exact .inr (.inr (.inr (.inr (.inr (.inr (.inr ⟨h, rfl⟩))))))

/-- An arm of SEQ that has a next state is selected: its row's condition holds (R62). -/
theorem selectedBy_of_exec {i : Instr} {s t : State} (hi : i.op = some .seq) (h : exec i s = .next t) :
    i.selectedBy s.control = true := by
  cases i with
  | seqDispatch => simp [Instr.selectedBy, State.control, (exec_seqDispatch_eq_next.mp h).1]
  | seqExit => simp [Instr.selectedBy, State.control, (exec_seqExit_eq_next.mp h).1]
  | seqTickCc => simp [Instr.selectedBy, State.control, (exec_seqTickCc_eq_next.mp h).1]
  | seqTickCs => simp [Instr.selectedBy, State.control, (exec_seqTickCs_eq_next.mp h).1]
  | seqTickPc => simp [Instr.selectedBy, State.control, (exec_seqTickPc_eq_next.mp h).1]
  | seqTickPs => simp [Instr.selectedBy, State.control, (exec_seqTickPs_eq_next.mp h).1]
  | seqBadphase => simp [Instr.selectedBy, State.control, (exec_seqBadphase_eq_next.mp h).1]
  | _ => simp [Instr.op] at hi

/-- The arm that has a next state is the one the decoder selects, and the one SEQ takes (R62, R110). -/
theorem take_seq_of_exec {i : Instr} {s t : State} (hi : i.op = some .seq) (h : exec i s = .next t) :
    decode (Op.code .seq) s.control = .ok i ∧ take .seq s = .next t := by
  have hs := selectedBy_of_exec hi h
  have hd : decode (Op.code .seq) s.control = .ok i := by
    cases i with
    | seqDispatch => exact Laws.RoundTrip.seqDispatch rfl _ hs
    | seqExit => exact Laws.RoundTrip.seqExit rfl _ hs
    | seqTickCc => exact Laws.RoundTrip.seqTickCc rfl _ hs
    | seqTickCs => exact Laws.RoundTrip.seqTickCs rfl _ hs
    | seqTickPc => exact Laws.RoundTrip.seqTickPc rfl _ hs
    | seqTickPs => exact Laws.RoundTrip.seqTickPs rfl _ hs
    | seqBadphase => exact Laws.RoundTrip.seqBadphase rfl _ hs
    | _ => simp [Instr.op] at hi
  exact ⟨hd, by simp only [take, takeCode, hd, h]⟩

/-- Where an op has a next state, some instruction of that op gives it. -/
theorem take_eq_next {op : Op} {s t : State} (h : take op s = .next t) :
    ∃ i, i.op = some op ∧ exec i s = .next t := by
  cases op with
  | rst => exact ⟨.rst, rfl, h⟩
  | tmr => exact ⟨.tmr, rfl, h⟩
  | edm => exact ⟨.edm, rfl, h⟩
  | edc => exact ⟨.edc, rfl, h⟩
  | svm => exact ⟨.svm, rfl, h⟩
  | svc => exact ⟨.svc, rfl, h⟩
  | seq =>
    rcases take_seq_cases s with ⟨_, e⟩ | ⟨_, _, e⟩ | ⟨_, _, _, e⟩ | ⟨_, _, _, e⟩ | ⟨_, _, _, e⟩ | ⟨_, _, _, e⟩ |
      ⟨_, e⟩ | ⟨_, e⟩ <;> rw [e] at h
    · exact ⟨_, rfl, h⟩
    · exact ⟨_, rfl, h⟩
    · exact ⟨_, rfl, h⟩
    · exact ⟨_, rfl, h⟩
    · exact ⟨_, rfl, h⟩
    · exact ⟨_, rfl, h⟩
    · cases h
    · exact ⟨_, rfl, h⟩

/-- Outside WAIT, SEQ has its step (R60, R110). -/
theorem take_seq_runs {s : State} (h : s.phase ≠ 2#2) : ∃ t, take .seq s = .next t := by
  rcases take_seq_cases s with ⟨hp, e⟩ | ⟨hp, hm, e⟩ | ⟨hp, hm, he, e⟩ | ⟨hp, hm, he, e⟩ | ⟨hp, hm, he, e⟩ |
    ⟨hp, hm, he, e⟩ | ⟨hp, e⟩ | ⟨hp, e⟩
  · exact ⟨_, e.trans (exec_seqDispatch_eq_next.mpr ⟨hp, rfl⟩)⟩
  · exact ⟨_, e.trans (exec_seqExit_eq_next.mpr ⟨⟨hp, hm⟩, rfl⟩)⟩
  · exact ⟨_, e.trans (exec_seqTickCc_eq_next.mpr ⟨⟨hp, hm, he⟩, rfl⟩)⟩
  · exact ⟨_, e.trans (exec_seqTickCs_eq_next.mpr ⟨⟨hp, hm, he⟩, rfl⟩)⟩
  · exact ⟨_, e.trans (exec_seqTickPc_eq_next.mpr ⟨⟨hp, hm, he⟩, rfl⟩)⟩
  · exact ⟨_, e.trans (exec_seqTickPs_eq_next.mpr ⟨⟨hp, hm, he⟩, rfl⟩)⟩
  · exact absurd hp h
  · exact ⟨_, e.trans (exec_seqBadphase_eq_next.mpr ⟨hp, rfl⟩)⟩

/-- SEQ and TMR write no pending latch (R24). -/
theorem take_keeps_latches {op : Op} (ho : op = .seq ∨ op = .tmr) {s t : State} (h : take op s = .next t) :
    t.pendM = s.pendM ∧ t.pendC = s.pendC := by
  obtain ⟨i, hi, hx⟩ := take_eq_next h
  rcases ho with rfl | rfl <;> cases i <;> simp only [Instr.op, reduceCtorEq, Option.some.injEq] at hi
  · obtain ⟨_, rfl⟩ := exec_seqDispatch_eq_next.mp hx; exact ⟨rfl, rfl⟩
  · obtain ⟨_, rfl⟩ := exec_seqExit_eq_next.mp hx; exact ⟨rfl, rfl⟩
  · obtain ⟨_, rfl⟩ := exec_seqTickCc_eq_next.mp hx; exact ⟨rfl, rfl⟩
  · obtain ⟨_, rfl⟩ := exec_seqTickCs_eq_next.mp hx; exact ⟨rfl, rfl⟩
  · obtain ⟨_, rfl⟩ := exec_seqTickPc_eq_next.mp hx; exact ⟨rfl, rfl⟩
  · obtain ⟨_, rfl⟩ := exec_seqTickPs_eq_next.mp hx; exact ⟨rfl, rfl⟩
  · obtain ⟨_, rfl⟩ := exec_seqBadphase_eq_next.mp hx; exact ⟨rfl, rfl⟩
  · rcases exec_tmr_cases s with ⟨_, e⟩ | ⟨_, _, e⟩ | ⟨_, _, e⟩ <;> rw [e] at hx <;> cases hx <;> exact ⟨rfl, rfl⟩

/-- TMR leaves no WAIT (R118). -/
theorem take_tmr_ends_wait {s t : State} (h : take .tmr s = .next t) : t.phase ≠ 2#2 := by
  rw [take_tmr] at h
  rcases exec_tmr_cases s with ⟨_, e⟩ | ⟨hp, _, e⟩ | ⟨hp, _, e⟩ <;> rw [e] at h <;> cases h
  · simp
  · simp [hp]
  · exact hp

/-- TMR always has its step (R118). -/
theorem take_tmr_runs (s : State) : ∃ t, take .tmr s = .next t := ⟨_, rfl⟩

/-! ## A step -/

/-- The next code is either the code of an op or a reserved one; the step takes the op, or records the refusal. -/
theorem step_cases (s : State) :
    (∃ op, s.nextCode = op.code ∧ step s = take op s.advance) ∨
    (opOf s.nextCode = none ∧ step s = .next (s.advance.markRefused s.nextCode)) := by
  cases h : opOf s.nextCode with
  | some op =>
    refine .inl ⟨op, opOf_eq_some h, ?_⟩
    rw [step, take, ← opOf_eq_some h]
  | none =>
    refine .inr ⟨rfl, ?_⟩
    simp only [step, takeCode, decode, h]
    by_cases h0 : s.nextCode = 0#4
    · simp only [h0, if_true]; rfl
    · simp only [h0, if_false]; rfl

/-- Where a step has a next state, some instruction gives it from the state after the schedule has moved on. -/
theorem step_eq_next {s t : State} (h : step s = .next t) : ∃ i, exec i s.advance = .next t := by
  rcases step_cases s with ⟨op, _, e⟩ | ⟨_, e⟩
  · obtain ⟨i, _, hi⟩ := take_eq_next (e ▸ h)
    exact ⟨i, hi⟩
  · exact ⟨.reservedHigh s.nextCode, by rw [← h, e]; rfl⟩

/-- The machine's run of one step more goes on from the step's next state. -/
theorem run_next {s t : State} (k : Nat) (h : step s = .next t) :
    Host.Core.run Sys2Proof.core (k + 1) s = Host.Core.run Sys2Proof.core k t := by
  have h' : Sys2Proof.core.step s = .next t := h
  simp only [Host.Core.run, h']

/-- The machine's run stops where its step stops. -/
theorem run_fault {s : State} {f : Fault} (k : Nat) (h : step s = .fault f) :
    Host.Core.run Sys2Proof.core (k + 1) s = .fault f := by
  have h' : Sys2Proof.core.step s = .fault f := h
  simp only [Host.Core.run, h']

/-! ## Running a list of ops -/

@[simp] theorem runOps_nil (s : State) : runOps [] s = some s := rfl

theorem runOps_cons {op : Op} {ops : List Op} {s t : State} (h : take op s = .next t) :
    runOps (op :: ops) s = runOps ops t := by simp [runOps, h]

/-- A run of a longer list begins with one op's step. -/
theorem runOps_cons_eq_some {op : Op} {ops : List Op} {s u : State} (h : runOps (op :: ops) s = some u) :
    ∃ t, take op s = .next t ∧ runOps ops t = some u := by
  rw [runOps] at h
  split at h
  · exact ⟨_, ‹_›, h⟩
  · cases h
  · cases h

/-- A run of two lists is the run of the second from where the first ends. -/
theorem runOps_append {a b : List Op} {s t : State} (h : runOps a s = some t) :
    runOps (a ++ b) s = runOps b t := by
  induction a generalizing s with
  | nil => cases h; rfl
  | cons op ops ih =>
    obtain ⟨u, hu, h⟩ := runOps_cons_eq_some h
    rw [List.cons_append, runOps_cons hu, ih h]

theorem repeatOps_succ (n : Nat) (ops : List Op) : repeatOps (n + 1) ops = ops ++ repeatOps n ops := by
  simp [repeatOps, List.replicate_succ]

theorem repeatOps_succ' (n : Nat) (ops : List Op) : repeatOps (n + 1) ops = repeatOps n ops ++ ops := by
  simp [repeatOps, List.replicate_succ']

/-! ## Running a trace (R69) -/

/-- A trace whose first op has its step goes on with the rest from there. -/
theorem runTracedOps_cons {traced : TracedOp} {rest : List TracedOp} {s t : State} (h : take traced.op s = .next t) :
    runTracedOps (traced :: rest) s = runTracedOps rest t := by simp [runTracedOps, h]

/-- A trace whose first op has no step is stuck at that op's line. -/
theorem runTracedOps_stuck {traced : TracedOp} {rest : List TracedOp} {s : State} (h : NoStep (take traced.op s)) :
    runTracedOps (traced :: rest) s = .stuck traced.line traced.op s := by
  cases e : take traced.op s with
  | next t => exact absurd e (h t)
  | fault f => simp [runTracedOps, e]
  | refused r => simp [runTracedOps, e]

end Sys2Proof.Machine
end

