-- ==== Sys2Proof/Tests/Slice0.lean ====
section
/-!
SUPPORT. Tests/Slice0.lean: small tests against the vectors of spec/95_test_vectors.md, one step each, and for each
statement with hypotheses a witness that meets them.
-/
namespace Sys2Proof.Machine.Tests

/-! ## Well-formedness: the one check, refused and passed -/

theorem test_wf_refuses_a_code_without_bit_3 : (Instr.reservedHigh 0b0111#4).wf = false := by decide
theorem test_wf_accepts_a_code_with_bit_3 : (Instr.reservedHigh 0b1000#4).wf = true := by decide
theorem test_params_wf :
    (Params.wf ⟨8, 3#8, false, 2, 2⟩ = true) ∧ (Params.wf ⟨0, 0#0, false, 2, 2⟩ = false) ∧
    (Params.wf ⟨8, 3#8, false, 0, 2⟩ = false) ∧ (Params.wf ⟨8, 3#8, false, 4, 2⟩ = false) := by decide
/-- R6's values for this hardware are within R6's constraints, whatever W and MAX_HW. -/
theorem test_config_wf : Config.params.wf = true := by
  simp [Config.params, Params.wf, Config.dutyWidth, Config.dwellTicks, Config.dwellWidth]

/-! ## Decoding, by codes written out from R60 and R61 and control states from R62 -/

theorem test_decode_rst : decode 0b0001#4 ⟨2#2, 0#2, 3#2⟩ = .ok .rst := by decide
theorem test_decode_dispatch : decode 0b0010#4 ⟨0#2, 1#2, 1#2⟩ = .ok .seqDispatch := by decide
theorem test_decode_exit : decode 0b0010#4 ⟨1#2, 0#2, 3#2⟩ = .ok .seqExit := by decide
theorem test_decode_tickCc : decode 0b0010#4 ⟨1#2, 0#2, 0#2⟩ = .ok .seqTickCc := by decide
theorem test_decode_tickCs : decode 0b0010#4 ⟨1#2, 1#2, 1#2⟩ = .ok .seqTickCs := by decide
theorem test_decode_tickPc : decode 0b0010#4 ⟨1#2, 2#2, 2#2⟩ = .ok .seqTickPc := by decide
theorem test_decode_tickPs : decode 0b0010#4 ⟨1#2, 3#2, 3#2⟩ = .ok .seqTickPs := by decide
theorem test_decode_badphase : decode 0b0010#4 ⟨3#2, 0#2, 0#2⟩ = .ok .seqBadphase := by decide
theorem test_decode_seq_held : decode 0b0010#4 ⟨2#2, 3#2, 3#2⟩ = .error .seq := by decide
theorem test_decode_tmr : decode 0b0011#4 ⟨2#2, 0#2, 3#2⟩ = .ok .tmr := by decide
theorem test_decode_edm : decode 0b0100#4 ⟨2#2, 0#2, 3#2⟩ = .ok .edm := by decide
theorem test_decode_edc : decode 0b0101#4 ⟨2#2, 0#2, 3#2⟩ = .ok .edc := by decide
theorem test_decode_svm : decode 0b0110#4 ⟨2#2, 0#2, 3#2⟩ = .ok .svm := by decide
theorem test_decode_svc : decode 0b0111#4 ⟨2#2, 0#2, 3#2⟩ = .ok .svc := by decide
theorem test_decode_reservedZero : decode 0b0000#4 ⟨1#2, 0#2, 0#2⟩ = .ok .reservedZero := by decide
theorem test_decode_reservedHigh :
    decode 0b1000#4 ⟨1#2, 0#2, 0#2⟩ = .ok (.reservedHigh 8#4) ∧
    decode 0b1111#4 ⟨1#2, 0#2, 0#2⟩ = .ok (.reservedHigh 15#4) := by decide

/-- R60: no two rows of the selector table share a code. -/
theorem test_op_table_codes_differ : opTable.Pairwise fun a b => a.1 ≠ b.1 ∧ a.2 ≠ b.2 := by decide

/-- R63, R65: the encodings of the modes and the phases. -/
theorem test_field_encodings :
    Mode.constantCycling = 0b00#2 ∧ Mode.constantSingle = 0b01#2 ∧ Mode.pulseCycling = 0b10#2 ∧
    Mode.pulseSingle = 0b11#2 ∧ Phase.dispatch = 0b00#2 ∧ Phase.guard = 0b01#2 ∧ Phase.wait = 0b10#2 ∧
    Phase.unused = 0b11#2 := by decide

/-- R12, R63: the classes of the four modes. -/
theorem test_mode_classes :
    ([0#2, 1#2, 2#2, 3#2].map fun m => (Mode.isPulse m, Mode.isCycling m)) =
      [(false, true), (false, false), (true, true), (true, false)] := by decide

/-- R21: the op each input port causes. -/
theorem test_input_ports :
    [Input.rst, .maxHw, .btnMode, .btnColor, .tick].map Input.op =
      [some .rst, none, some .edm, some .edc, some .tmr] := by decide

/-- V-ENC: the spec's five hex traces. -/
theorem test_hex_trace :
    ((codesOfHex "1462".toList).map (decodeTrace 0) = some [.ok .rst, .ok .edm, .ok .svm, .ok .seq]) ∧
    ((codesOfHex "0".toList).map (decodeTrace 0) = some [.error (1, 0#4)]) ∧
    ((codesOfHex "18".toList).map (decodeTrace 0) = some [.ok .rst, .error (2, 8#4)]) ∧
    ((codesOfHex "1F".toList).map (decodeTrace 0) = some [.ok .rst, .error (2, 15#4)]) ∧
    ((codesOfHex "1357".toList).map (decodeTrace 0) = some [.ok .rst, .ok .tmr, .ok .edc, .ok .svc]) :=
  ⟨rfl, rfl, rfl, rfl, rfl⟩

/-- R69, R70: comments, blank lines, counts and pseudo-ops. -/
theorem test_read_trace :
    (readTrace "RST            ; 1\n\nPRESSM*2 ; 4646\n; nothing\nSTEP").map assembleTrace =
      some [0x1#4, 0x4#4, 0x6#4, 0x4#4, 0x6#4, 0x3#4, 0x2#4] := by decide

/-- R69: lower case, a count of 0 and an unknown mnemonic are no trace lines. -/
theorem test_read_trace_refuses :
    readTrace "rst" = none ∧ readTrace "TMR*0" = none ∧ readTrace "NOP" = none := by decide

/-- P1's text assembles to its stated encoding 146464657223232. -/
theorem test_assemble_program_one :
    (readTrace "RST\nPRESSM*3\nPRESSC\nSEQ\nSEQ\nSTEP*2").map (fun t => hexOfCodes (assembleTrace t)) =
      some "146464657223232".toList := by decide

/-! ## States in the notation of spec/95: MODE COLOR | PEND_M PEND_C | PHASE ENTRY | DUTY TO_ADD MAXL DWELL | CH -/

/-- The parameters of the spec's vectors: W = 8, MAX_HW = 3, DUTY_DIV4 = false, DWELL_TICKS = 2. -/
def vectorParams : Params := ⟨8, 3#8, false, 2, 2⟩

/-- A state with the vectors' parameters. -/
def mk (mode : BitVec 2) (color : BitVec 3) (pendM pendC : Bool) (phase entry : BitVec 2) (duty : BitVec 8) (toAdd : Bool)
    (maxl : BitVec 8) (dwell : BitVec 2) (r g b : BitVec 8) : State where
  params := vectorParams
  mode := mode
  color := color
  pendM := pendM
  pendC := pendC
  phase := phase
  entry := entry
  duty := duty
  toAdd := toAdd
  maxl := maxl
  dwell := dwell
  ch := { r := r, g := g, b := b }
  faulted := false
  refused := false
  refusals := []
  trace := []
  pos := 0

/-- Whether an outcome is this next state. -/
def gives (o : Host.Outcome State Fault Refusal) (t : State) : Bool :=
  match o with
  | .next s => decide (s = t)
  | .fault _ => false
  | .refused _ => false

/-- Whether an outcome is this fault. -/
def stops (o : Host.Outcome State Fault Refusal) (f : Fault) : Bool :=
  match o with
  | .next _ => false
  | .fault g => decide (g = f)
  | .refused _ => false

/-- The reset state `0 1 | 0 0 | D 0 | 0 1 0 0 | [0,0,0]`. -/
theorem test_reset_state : State.resetWith vectorParams = mk 0 1 false false 0 0 0 true 0 0 0 0 0 := by decide

/-! ## The pure functions, by the tables V-ADV, V-SCALE, V-DUTY and V-DRIVE -/

theorem test_V_ADV :
    ([0#2, 1#2, 2#2, 3#2].map advMode = [1#2, 2#2, 3#2, 0#2]) ∧
    ([0#3, 1#3, 2#3, 3#3, 4#3, 5#3, 6#3, 7#3].map advBtn = [1#3, 2#3, 3#3, 4#3, 5#3, 6#3, 7#3, 0#3]) ∧
    ([0#3, 1#3, 2#3, 3#3, 4#3, 5#3, 6#3, 7#3].map advAuto = [1#3, 2#3, 3#3, 4#3, 5#3, 6#3, 7#3, 1#3]) := by decide

theorem test_V_SCALE :
    ([0#8, 3#8, 255#8].map (scale false) = [0#8, 3#8, 255#8]) ∧
    ([3#8, 4#8, 7#8, 8#8, 255#8].map (scale true) = [0#8, 1#8, 1#8, 2#8, 63#8]) := by decide

theorem test_V_DUTY :
    dutyStep 0#8 true 3#8 = (1#8, true) ∧ dutyStep 2#8 true 3#8 = (3#8, false) ∧
    dutyStep 3#8 false 3#8 = (2#8, false) ∧ dutyStep 1#8 false 3#8 = (0#8, true) ∧
    dutyStep 0#8 true 1#8 = (1#8, false) ∧ dutyStep 1#8 false 1#8 = (0#8, true) ∧
    dutyStep 254#8 true 255#8 = (255#8, false) ∧ dutyStep 0#8 true 0#8 = (0#8, true) := by decide

theorem test_V_DUTY_unreachable :
    dutyStep 3#8 true 3#8 = (4#8, true) ∧ dutyStep 255#8 true 255#8 = (0#8, true) ∧
    dutyStep 0#8 false 3#8 = (255#8, false) := by decide

theorem test_V_DUTY_returned :
    returned 1#8 false 3#8 = true ∧ returned 1#8 false 1#8 = true ∧ returned 2#8 false 3#8 = false ∧
    returned 0#8 true 3#8 = false ∧ returned 1#8 true 3#8 = false ∧ returned 0#8 true 0#8 = false := by decide

theorem test_V_DRIVE :
    drive 0#3 5#8 = ⟨0, 0, 0⟩ ∧ drive 1#3 5#8 = ⟨5, 0, 0⟩ ∧ drive 2#3 5#8 = ⟨0, 5, 0⟩ ∧ drive 4#3 5#8 = ⟨0, 0, 5⟩ ∧
    drive 5#3 9#8 = ⟨9, 0, 9⟩ ∧ drive 6#3 5#8 = ⟨0, 5, 5⟩ ∧ drive 7#3 5#8 = ⟨5, 5, 5⟩ ∧ drive 7#3 0#8 = ⟨0, 0, 0⟩ := by
  decide

/-! ## The ops, one step each, by the vectors V-RST, V-EDGE, V-SEQ and V-TMR -/

theorem test_V_RST : gives (take .rst (mk 2 0 true true 2 2 3 false 3 0 0 3 0)) (mk 0 1 false false 0 0 0 true 0 0 0 0 0) := by
  decide
/-- R32: RST keeps the marks. -/
theorem test_rst_keeps_marks :
    gives (exec .rst { mk 2 0 true true 2 2 3 false 3 0 0 3 0 with faulted := true, refused := true })
      { mk 0 1 false false 0 0 0 true 0 0 0 0 0 with faulted := true, refused := true } := by decide

theorem test_V_EDGE_1 : gives (take .edm (mk 0 1 false false 0 0 0 true 0 0 0 0 0)) (mk 0 1 true false 0 0 0 true 0 0 0 0 0) := by
  decide
theorem test_V_EDGE_2 : gives (take .edm (mk 0 1 true false 0 0 0 true 0 0 0 0 0)) (mk 0 1 true false 0 0 0 true 0 0 0 0 0) := by
  decide
theorem test_edc_in_wait : gives (take .edc (mk 3 1 false false 2 3 2 true 3 0 2 0 0)) (mk 3 1 false true 2 3 2 true 3 0 2 0 0) := by
  decide
theorem test_V_EDGE_3 : gives (take .svm (mk 3 1 true false 0 0 0 true 0 0 0 0 0)) (mk 0 1 false false 0 0 0 true 0 0 0 0 0) := by
  decide
theorem test_V_EDGE_4 : stops (take .svm (mk 0 1 false false 0 0 0 true 0 0 0 0 0)) (.held .svm 0) := by decide
theorem test_V_EDGE_5 : gives (take .svc (mk 0 7 false true 0 0 0 true 0 0 0 0 0)) (mk 0 0 false false 0 0 0 true 0 0 0 0 0) := by
  decide
/-- V-EDGE-10: SVC in WAIT leaves PHASE, DUTY and CH. -/
theorem test_V_EDGE_10 : gives (take .svc (mk 3 1 false true 2 3 2 true 3 0 2 0 0)) (mk 3 2 false false 2 3 2 true 3 0 2 0 0) := by
  decide

theorem test_V_SEQ_1 : gives (take .seq (mk 2 1 false false 0 0 2 false 3 1 3 0 0)) (mk 2 1 false false 1 2 0 true 3 0 3 0 0) := by
  decide
/-- P4's parameters: with DUTY_DIV4 true, DISPATCH latches SCALE(3) = 0. -/
theorem test_dispatch_divides :
    gives (take .seq { State.resetWith ⟨8, 3#8, true, 2, 2⟩ with mode := 3#2 })
      { State.resetWith ⟨8, 3#8, true, 2, 2⟩ with mode := 3#2, entry := 3#2, phase := 1#2 } := by decide
theorem test_V_SEQ_2 : gives (take .seq (mk 0 1 false false 1 3 2 true 3 0 2 2 2)) (mk 0 1 false false 0 3 2 true 3 0 0 0 0) := by
  decide
theorem test_V_SEQ_3 : gives (take .seq (mk 2 5 false false 1 1 0 true 3 0 3 0 3)) (mk 2 5 false false 0 1 0 true 3 0 3 0 3) := by
  decide
theorem test_V_SEQ_4 : gives (take .seq (mk 3 7 false false 1 3 2 true 3 0 2 2 2)) (mk 3 7 false false 2 3 3 false 3 0 3 3 3) := by
  decide
theorem test_V_SEQ_5 : gives (take .seq (mk 2 7 false false 1 2 1 false 3 0 1 1 1)) (mk 2 1 false false 2 2 0 true 3 0 0 0 0) := by
  decide
theorem test_V_SEQ_5b : gives (take .seq (mk 2 0 false false 1 2 3 false 3 0 0 0 0)) (mk 2 0 false false 2 2 2 false 3 0 0 0 0) := by
  decide
theorem test_V_SEQ_6 : gives (take .seq (mk 1 0 false false 1 1 0 true 3 0 3 0 0)) (mk 1 0 false false 1 1 0 true 3 0 0 0 0) := by
  decide
/-- E3: with COLOR = 5 the red and blue channels hold the maximum. -/
theorem test_E3 : gives (take .seq (mk 1 5 false false 1 1 0 true 3 0 0 0 0)) (mk 1 5 false false 1 1 0 true 3 0 3 0 3) := by
  decide
theorem test_V_SEQ_7 : gives (take .seq (mk 0 3 false false 1 0 0 true 3 1 0 0 0)) (mk 0 3 false false 1 0 0 true 3 1 3 3 0) := by
  decide
theorem test_V_SEQ_7b : gives (take .seq (mk 0 6 false false 1 0 0 true 3 2 0 3 3)) (mk 0 7 false false 1 0 0 true 3 0 3 3 3) := by
  decide
theorem test_V_SEQ_9 : gives (take .seq (mk 1 5 false true 3 2 1 true 3 1 1 2 3))
    { mk 1 5 false true 3 2 1 true 3 1 1 2 3 with faulted := true } := by decide
theorem test_V_SEQ_10 : stops (take .seq (mk 3 1 false false 2 3 1 true 3 0 1 0 0)) (.held .seq 0) := by decide
theorem test_V_SEQ_11 : gives (take .seq (mk 3 7 false false 1 3 0 true 0 0 0 0 0)) (mk 3 7 false false 2 3 0 true 0 0 0 0 0) := by
  decide

theorem test_V_TMR_1 : gives (take .tmr (mk 2 1 false false 2 2 1 true 3 0 1 0 0)) (mk 2 1 false false 1 2 1 true 3 0 1 0 0) := by
  decide
theorem test_V_TMR_2_3 :
    gives (take .tmr (mk 0 1 false false 1 0 0 true 3 0 3 0 0)) (mk 0 1 false false 1 0 0 true 3 1 3 0 0) ∧
    gives (take .tmr (mk 0 1 false false 1 0 0 true 3 2 3 0 0)) (mk 0 1 false false 1 0 0 true 3 2 3 0 0) := by decide

theorem test_reservedZero_records_its_position :
    gives (step { State.resetWith vectorParams with trace := [0#4], pos := 4 })
      { State.resetWith vectorParams with pos := 5, refused := true, refusals := [⟨5, 0#4⟩] } := by decide
theorem test_reservedHigh_records_its_code :
    gives (step { State.resetWith vectorParams with trace := [15#4, 1#4], pos := 1 })
      { State.resetWith vectorParams with trace := [1#4], pos := 2, refused := true, refusals := [⟨2, 15#4⟩] } := by decide

/-- R33: the output ports show CH, MODE and COLOR. -/
theorem test_outputs : (mk 2 5 false false 1 2 1 true 3 0 7 8 9).outputs = ⟨7#8, 8#8, 9#8, 2#2, 5#3⟩ := by decide

/-- A word placed for the fetch is what the step runs: SEQ from reset is DISPATCH (R151), whatever W and MAX_HW. -/
theorem test_fetch_word :
    decodeTableWord 8 2 = some .seqDispatch ∧
    step (State.reset.withFetchWord 8 2) = exec .seqDispatch (State.reset.withFetchWord 8 2).advance := ⟨rfl, rfl⟩

/-! ## Witnesses: states and operands that meet the hypotheses of the statements -/

theorem witness_DecodeReadsBackEveryRow :
    Instr.wf .seqExit = true ∧ Instr.selectedBy ⟨1#2, 3#2, 2#2⟩ .seqExit = true ∧ Instr.wf (.reservedHigh 8#4) = true ∧
    Instr.wf (.reservedHigh 15#4) = true := by decide

theorem witness_DecoderAnswersExactlyTheTable :
    decode 0b0010#4 ⟨1#2, 0#2, 0#2⟩ = .ok .seqTickCc ∧ decode 0b0010#4 ⟨2#2, 0#2, 2#2⟩ = .error .seq := by decide

theorem witness_OpSelectorTable : 8 ≤ (8#4).toNat ∧ 8 ≤ (15#4).toNat ∧ opOf 0b0111#4 = some .svc := by decide

theorem witness_SeqArmSelection :
    (0#2).toNat = 0 ∧ ((1#2).toNat = 1 ∧ 3#2 ≠ 0#2) ∧ ((1#2).toNat = 1 ∧ (0#2).toNat = 0) ∧
    ((1#2).toNat = 1 ∧ (2#2).toNat = 2) ∧ ((1#2).toNat = 1 ∧ (3#2).toNat = 3) ∧ (2#2).toNat = 2 ∧ (3#2).toNat = 3 := by
  decide

theorem witness_SeqHasExactlyOneArm :
    (mk 0 1 false false 3 0 0 true 0 0 0 0 0).phase ≠ 2#2 ∧ (mk 3 1 false false 2 3 1 true 3 0 1 0 0).phase = 2#2 ∧
    Instr.op .seqBadphase = some .seq ∧
    ∃ t, exec .seqBadphase (mk 0 1 false false 3 0 0 true 0 0 0 0 0) = .next t :=
  ⟨by decide, by decide, rfl, _, rfl⟩

theorem witness_ReservedCodesAreRefused : (0#4 = 0#4 ∨ 8 ≤ (0#4).toNat) ∧ (8#4 = 0#4 ∨ 8 ≤ (8#4).toNat) ∧
    (15#4 = 0#4 ∨ 8 ≤ (15#4).toNat) := by decide

theorem witness_FirstTickAfterResetLightsRed : (mk 2 0 true true 2 2 3 false 3 0 0 3 0).params.wf = true := by decide

/-- The latch set and the latch clear, for the statements about EDM, EDC, SVM and SVC. -/
theorem witness_ModeEdgeSetsItsLatch : (mk 3 1 true false 2 3 1 true 3 0 1 0 0).pendM = true := rfl
theorem witness_ColorEdgeSetsItsLatch : (mk 3 1 false true 2 3 1 true 3 0 1 0 0).pendC = true := rfl
theorem witness_ModeServiceAdvancesMode :
    (mk 3 1 true false 2 3 1 true 3 0 1 0 0).pendM = true ∧ (mk 3 1 false false 0 0 0 true 0 0 0 0 0).pendM = false :=
  ⟨rfl, rfl⟩
theorem witness_ColorServiceAdvancesColor :
    (mk 3 7 false true 2 3 1 true 3 0 1 0 0).pendC = true ∧ (mk 3 7 false false 0 0 0 true 0 0 0 0 0).pendC = false :=
  ⟨rfl, rfl⟩

theorem witness_PendingEdgesMerge :
    (∃ u t v, runOps [.edm, .seq, .edm] (mk 3 1 false false 0 0 0 true 0 0 0 0 0) = some u ∧ take .svm u = .next t ∧
      runOps [.edc, .rst] t = some v) ∧
    ∃ u t v, runOps [.edc, .edm] (mk 3 7 false false 0 0 0 true 0 0 0 0 0) = some u ∧ take .svc u = .next t ∧
      runOps [] t = some v :=
  ⟨⟨_, _, _, rfl, rfl, rfl⟩, ⟨_, _, _, rfl, rfl, rfl⟩⟩

theorem witness_UpdatesCommute :
    (mk 1 4 true true 0 0 0 true 0 0 0 0 0).pendM = true ∧ (mk 1 4 true true 0 0 0 true 0 0 0 0 0).pendC = true :=
  ⟨rfl, rfl⟩

/-- V-RACE's start state, and one of ConstantCycling with the dwell over. -/
def raceState : State := mk 2 6 false true 1 2 1 false 3 0 1 0 0
def dwellState : State := mk 0 7 false true 1 0 0 true 3 2 3 3 3

theorem witness_ColorRaceLosesNoUpdate :
    (raceState.phase = 1#2 ∧ raceState.mode = raceState.entry ∧ raceState.pendC = true ∧ raceState.entry = 2#2 ∧
      raceState.rampReturns = true) ∧
    (dwellState.phase = 1#2 ∧ dwellState.mode = dwellState.entry ∧ dwellState.pendC = true ∧ dwellState.entry = 0#2 ∧
      dwellState.dwellReached = true) := by decide

theorem witness_OnlyTheButtonSelectsAllOff :
    (∃ t, exec .svc dwellState = .next t ∧ t.color.toNat = 0) ∧
    ∃ t, exec .edm (mk 3 0 false false 0 0 0 true 0 0 0 0 0) = .next t ∧ t.color.toNat = 0 :=
  ⟨⟨_, rfl, by decide⟩, ⟨_, rfl, by decide⟩⟩

theorem witness_SharedRegisterWriters :
    (∃ t, exec .svm (mk 3 1 true false 0 0 0 true 0 0 0 0 0) = .next t ∧ t.mode ≠ 3#2 ∧ t.pendM ≠ true) ∧
    ∃ t, exec .svc dwellState = .next t ∧ t.color ≠ 7#3 ∧ t.pendC ≠ true :=
  ⟨⟨_, rfl, by decide⟩, ⟨_, rfl, by decide⟩⟩

theorem witness_SequencerRegisterWriters :
    (∃ t, exec .seqDispatch (mk 2 1 false false 0 0 2 false 1 1 3 0 0) = .next t ∧ t.phase ≠ 0#2 ∧ t.entry ≠ 0#2 ∧
      t.duty.toNat ≠ 2 ∧ t.toAdd ≠ false ∧ t.maxl.toNat ≠ 1 ∧ t.dwell.toNat ≠ 1) ∧
    ∃ t, exec .tmr (mk 0 1 false false 1 0 0 true 3 0 3 0 0) = .next t ∧ t.dwell.toNat ≠ 0 :=
  ⟨⟨_, rfl, by decide⟩, ⟨_, rfl, by decide⟩⟩

theorem witness_ChannelOwnership :
    ∃ t, exec .seqExit (mk 0 1 false false 1 3 2 true 3 0 2 2 2) = .next t ∧ ∃ k, (t.ch.get k).toNat ≠ 2 :=
  ⟨_, rfl, 0, by decide⟩

theorem witness_ParametersAreFixed :
    ∃ t, step { mk 0 1 false false 0 0 0 true 0 0 0 0 0 with trace := [2#4] } = .next t := ⟨_, rfl⟩

theorem witness_MarksAreSticky :
    (∃ t, exec .rst { mk 0 1 false false 0 0 0 true 0 0 0 0 0 with faulted := true, refused := true } = .next t ∧
      t.faulted = true) ∧
    (∃ t, exec .seqBadphase (mk 0 1 false false 3 0 0 true 0 0 0 0 0) = .next t ∧ t.faulted = true) ∧
    ∃ t, exec (.reservedHigh 8#4) (mk 0 1 false false 0 0 0 true 0 0 0 0 0) = .next t ∧ t.refused = true :=
  ⟨⟨_, rfl, rfl⟩, ⟨_, rfl, rfl⟩, ⟨_, rfl, rfl⟩⟩

theorem witness_ScaleIsLatchedAtDispatch : (3#8).toNat ≤ 3 ∧ (mk 2 1 false false 0 0 2 false 1 1 3 0 0).phase = 0#2 := by
  decide

theorem witness_DutyStepRule :
    (∃ t, exec .seqTickPs (mk 3 7 false false 1 3 2 true 3 0 2 2 2) = .next t) ∧
    (∃ t, exec .seqTickPc (mk 2 7 false false 1 2 1 false 3 0 1 1 1) = .next t) ∧
    (0#8).toNat = 0 ∧ (255#8).toNat ≠ 0 ∧ (1#8).toNat ≠ 0 :=
  ⟨⟨_, rfl⟩, ⟨_, rfl⟩, by decide, by decide, by decide⟩

theorem witness_OnRamp : OnRamp 0#8 true 1#8 ∧ OnRamp 1#8 false 1#8 ∧ OnRamp 254#8 true 255#8 ∧ OnRamp 255#8 false 255#8 := by
  refine ⟨.inl ?_, .inr ?_, .inl ?_, .inr ?_⟩ <;> decide
theorem witness_ReturnedIsTheStepToZero : 1 ≤ (1#8).toNat ∧ OnRamp 1#8 false 1#8 := ⟨by decide, witness_OnRamp.2.1⟩
theorem witness_TriangleInvariant : 1 ≤ (1#8).toNat ∧ 1 ≤ (255#8).toNat ∧ (rampAfter 1#8 0).2 = true ∧
    (rampAfter 1#8 1).2 = false := by decide
theorem witness_WaveformClosedForm : 1 ≤ (1#8).toNat ∧ 1 ≤ (3#8).toNat := by decide

/-- Pulse modes held at a maximum of 0 (V-SEQ-11). -/
def darkState (m : BitVec 2) : State := mk m 7 false false 1 m 0 true 0 0 0 0 0

theorem witness_ZeroMaximumHoldsTheRamp :
    ∀ m ∈ [2#2, 3#2], (darkState m).phase = 1#2 ∧ (darkState m).mode = (darkState m).entry ∧
      ((darkState m).entry = 2#2 ∨ (darkState m).entry = 3#2) ∧ (darkState m).maxl.toNat = 0 ∧
      (darkState m).duty.toNat = 0 ∧ (darkState m).toAdd = true := by decide

/-- A handler's guard in each of the four modes. -/
def guardState (m : BitVec 2) : State := mk m 5 false false 1 m 0 true 3 0 1 1 1

theorem witness_NoStaleChannel :
    (∃ t, exec .seqTickCc (guardState 0) = .next t) ∧ (∃ t, exec .seqTickCs (guardState 1) = .next t) ∧
    (∃ t, exec .seqTickPc (guardState 2) = .next t) ∧ ∃ t, exec .seqTickPs (guardState 3) = .next t :=
  ⟨⟨_, rfl⟩, ⟨_, rfl⟩, ⟨_, rfl⟩, ⟨_, rfl⟩⟩

theorem witness_DispatchEntersTheHandler : (mk 3 1 false false 0 0 0 true 0 0 0 0 0).phase = 0#2 := rfl

/-- A handler whose guard fails, in each of the four modes. -/
def exitState (entry : BitVec 2) : State := mk (entry + 1) 5 false false 1 entry 1 true 3 0 1 1 1

theorem witness_ExitCleansUpPulseModes :
    (∀ e ∈ [0#2, 1#2, 2#2, 3#2], (exitState e).phase = 1#2 ∧ (exitState e).mode ≠ (exitState e).entry ∧
      (exitState e).entry = e) ∧
    (guardState 2).phase = 1#2 ∧ (guardState 2).mode = (guardState 2).entry := by decide

theorem witness_TickOfPulseSingle : (guardState 3).phase = 1#2 ∧ (guardState 3).mode = 3#2 ∧ (guardState 3).entry = 3#2 := by
  decide
theorem witness_TickOfPulseCycling :
    ((guardState 2).phase = 1#2 ∧ (guardState 2).mode = 2#2 ∧ (guardState 2).entry = 2#2 ∧
      returned (guardState 2).duty (guardState 2).toAdd (guardState 2).maxl = false) ∧
    raceState.phase = 1#2 ∧ raceState.mode = 2#2 ∧ raceState.entry = 2#2 ∧
      returned raceState.duty raceState.toAdd raceState.maxl = true := by decide
theorem witness_PollOfConstantSingle :
    (guardState 1).phase = 1#2 ∧ (guardState 1).mode = 1#2 ∧ (guardState 1).entry = 1#2 := by decide
/-- One strobe short of the dwell, and the dwell exactly over. -/
theorem witness_PollOfConstantCycling :
    ((mk 0 3 false false 1 0 0 true 3 1 0 0 0).phase = 1#2 ∧ (mk 0 3 false false 1 0 0 true 3 1 0 0 0).dwell.toNat < 2) ∧
    dwellState.phase = 1#2 ∧ dwellState.mode = 0#2 ∧ dwellState.entry = 0#2 ∧
      dwellState.params.dwellTicks ≤ dwellState.dwell.toNat := by decide
theorem witness_BadPhaseSetsFaulted : (mk 0 1 false false 3 0 0 true 0 0 0 0 0).phase = 3#2 := rfl
theorem witness_TimerStrobe :
    (mk 3 1 false false 2 3 1 true 3 0 1 0 0).phase = 2#2 ∧
    (dwellState.phase = 1#2 ∧ dwellState.entry = 0#2 ∧ dwellState.params.wf = true) ∧
    ((guardState 3).phase ≠ 2#2 ∧ ¬((guardState 3).phase = 1#2 ∧ (guardState 3).entry = 0#2)) ∧
    ((mk 0 1 false false 0 0 0 true 0 0 0 0 0).phase ≠ 2#2 ∧ (mk 0 1 false false 0 0 0 true 0 0 0 0 0).phase ≠ 1#2) := by
  decide

/-- A pulse handler in WAIT whose mode has changed. -/
def waitState : State := mk 0 5 false false 2 3 1 true 3 0 1 0 1

theorem witness_ModeChangeIsSeenAtTheNextSeq :
    ((exitState 3).mode ≠ (exitState 3).entry ∧ (exitState 3).phase = 1#2 ∧ ∃ u, runOps [] (exitState 3) = some u) ∧
    (waitState.mode ≠ waitState.entry ∧ waitState.phase = 2#2 ∧
      (∃ u, runOps [.edc, .svc, .tmr] waitState = some u) ∧ ∃ u, runOps [.edm] waitState = some u) :=
  ⟨⟨by decide, rfl, _, rfl⟩, by decide, rfl, ⟨_, rfl⟩, ⟨_, rfl⟩⟩

/-- A colour edge pending in the guard of each mode, no autonomous advance due. -/
theorem witness_ColorChangeShowsAtTheNextTick :
    ∀ m ∈ [0#2, 1#2, 2#2, 3#2], (guardState m).phase = 1#2 ∧ (guardState m).mode = (guardState m).entry ∧
      ((guardState m).latchEdge .color).pendC = true ∧ ((guardState m).latchEdge .color).rampReturns = false ∧
      ((guardState m).latchEdge .color).dwellReached = false := by decide

theorem witness_ExitDarkensUntilTheNextHandler :
    ∀ e ∈ [2#2, 3#2], (exitState e).phase = 1#2 ∧ (exitState e).mode ≠ (exitState e).entry ∧
      ((exitState e).entry = 2#2 ∨ (exitState e).entry = 3#2) ∧
      ∃ u, runOps [.seq, .edc, .tmr, .svc] (exitState e) = some u := by
  intro e he
  simp only [List.mem_cons, List.not_mem_nil, or_false] at he
  obtain rfl | rfl := he
  · exact ⟨rfl, by decide, by decide, _, rfl⟩
  · exact ⟨rfl, by decide, by decide, _, rfl⟩

theorem witness_SequencerIgnoresTheLatches :
    (∃ t, take .seq (guardState 2) = .next t) ∧ ∃ t, take .tmr waitState = .next t := ⟨⟨_, rfl⟩, ⟨_, rfl⟩⟩

theorem witness_LatchEffectsAreIdempotent :
    ∃ t u, take .edm waitState = .next t ∧ take .edm t = .next u := ⟨_, _, rfl, rfl⟩

theorem witness_OpStepsExactlyWhenEnabled :
    waitState.enabled .seq = false ∧ waitState.enabled .svm = false ∧ waitState.enabled .svc = false ∧
    waitState.enabled .tmr = true ∧ Instr.op .seqExit = some .seq ∧
    Instr.selectedBy waitState.control .seqExit = false := by decide

theorem witness_StepRunsTheDecodedInstruction :
    { waitState with trace := [3#4, 2#4] }.trace = 3#4 :: [2#4] ∧ decode 3#4 waitState.control = .ok .tmr ∧
    decode 2#4 waitState.control = .error .seq := by decide

theorem witness_FreeStepTakesAnEnabledOp : State.reset.trace = [] ∧ waitState.trace = [] := ⟨rfl, rfl⟩

theorem witness_StepStopsOnlyWhereAnOpIsHeld :
    step { waitState with trace := [2#4, 1#4] } = .fault (.held .seq 1) := rfl

theorem witness_TraceRunIsTheRunOfItsOps : ∃ t, runOps [.edm, .svm, .tmr] waitState = some t := ⟨_, rfl⟩

/-- R69, V-EDGE-6: two merged edges leave the second SVM without a step; it is written on the text's fifth line. -/
def stuckText : String := "RST\n; two edges, one service\nEDM*2\n\nSVM*2"

/-- Which line a run of a trace's text is stuck at. -/
def stuckLine (r : Option TraceRun) : Option (Nat × Op) :=
  match r with
  | some (.stuck line op _) => some (line, op)
  | some (.ended _) => none
  | none => none

theorem test_stuck_at_its_line : stuckLine (runText stuckText (mk 0 1 false false 0 0 0 true 0 0 0 0 0)) = some (5, .svm) := by
  decide

/-- R69, V-SEQ-10: in PulseSingle a STEP ends in WAIT, where after a press SEQ is held: the third line. -/
theorem test_stuck_in_wait : stuckLine (runText "STEP\nPRESSC\nSEQ ; held" (mk 3 1 false false 2 3 1 true 3 0 1 0 0)) =
    some (3, .seq) := by decide

theorem witness_TraceReportsTheLineItIsStuckAt :
    (∃ lines, readTrace stuckText = some lines ∧
      ∃ u, runTrace lines (mk 0 1 false false 0 0 0 true 0 0 0 0 0) = .stuck 5 .svm u) ∧
    ∃ lines, readTrace "RST ; 1\n\nPRESSM" = some lines ∧ ∃ t, runTrace lines waitState = .ended t :=
  ⟨⟨_, rfl, _, rfl⟩, ⟨_, rfl, _, rfl⟩⟩

theorem witness_InvariantsKeptByEveryStep :
    Inv { State.resetWith vectorParams with trace := [2#4] } ∧
    ∃ t, step { State.resetWith vectorParams with trace := [2#4] } = .next t :=
  ⟨{ phase_used := by decide
     wait_pulse := fun h => absurd h (by decide)
     max_latched := fun h => absurd rfl h
     duty_le := by decide
     on_ramp := fun h => absurd h (by decide)
     at_zero := fun _ => by decide
     dwell_le := by decide
     ch_le := by decide
     not_faulted := rfl }, _, rfl⟩

/-- A state of the invariant in the middle of a ramp, where PHASE = WAIT, MAXL ≥ 1 and a channel is lit. -/
theorem witness_invariants_mid_ramp : Inv (mk 3 1 false false 2 3 2 true 3 0 2 0 0) where
  phase_used := by decide
  wait_pulse := fun _ => .inr rfl
  max_latched := fun _ => rfl
  duty_le := by decide
  on_ramp := fun _ => .inl (by decide)
  at_zero := fun h => absurd h (by decide)
  dwell_le := by decide
  ch_le := by decide
  not_faulted := rfl

theorem witness_ReachableStatesAreSafe :
    ∃ t, Reachable t ∧ t.phase = 1#2 :=
  ⟨_, .next (.start vectorParams [2#4] (by decide)) rfl, rfl⟩

theorem witness_PulseSingleDrivesTheTriangle :
    (guardState 3).phase = 1#2 ∧ (guardState 3).mode = 3#2 ∧ (guardState 3).entry = 3#2 ∧ (guardState 3).duty.toNat = 0 ∧
    (guardState 3).toAdd = true ∧ 1 ≤ (guardState 3).maxl.toNat := by decide

theorem witness_PulseCyclingAdvancesOncePerPeriod :
    (guardState 2).phase = 1#2 ∧ (guardState 2).mode = 2#2 ∧ (guardState 2).entry = 2#2 ∧ (guardState 2).duty.toNat = 0 ∧
    (guardState 2).toAdd = true ∧ 1 ≤ (guardState 2).maxl.toNat := by decide

theorem witness_DwellHoldsTheColor :
    (guardState 0).phase = 1#2 ∧ (guardState 0).mode = 0#2 ∧ (guardState 0).entry = 0#2 ∧ (guardState 0).dwell.toNat = 0 ∧
    (guardState 0).params.wf = true ∧ (∀ op ∈ [Op.seq, Op.tmr, Op.seq], op = .tmr ∨ op = .seq) ∧
    [Op.seq, Op.tmr, Op.seq].count .tmr < (guardState 0).params.dwellTicks ∧
    [Op.seq, Op.tmr, Op.seq].count .tmr = (guardState 0).params.dwellTicks - 1 ∧
    ∃ u, runOps [.seq, .tmr, .seq] (guardState 0) = some u :=
  ⟨rfl, rfl, rfl, rfl, by decide, by decide, by decide, by decide, _, rfl⟩

/-! ### Fair runs: TMR and SEQ taken in turn, from any state with no edge pending -/

/-- TMR and SEQ in turn. -/
def turns (n : Nat) : Op := if n % 2 = 0 then .tmr else .seq

theorem turns_seq_or_tmr (n : Nat) : turns n = .seq ∨ turns n = .tmr := by
  unfold turns
  split
  · exact .inr rfl
  · exact .inl rfl

/-- The state after each op of a run; where an op has no step the run stands still. -/
def after (start : State) (op : Nat → Op) : Nat → State
  | 0 => start
  | n + 1 =>
    match take (op n) (after start op n) with
    | .next t => t
    | .fault _ => after start op n
    | .refused _ => after start op n

theorem after_succ {start : State} {op : Nat → Op} {n : Nat} {t : State} (h : take (op n) (after start op n) = .next t) :
    take (op n) (after start op n) = .next (after start op (n + 1)) := by
  rw [after, h]

/-- No edge becomes pending, and SEQ's turn never comes in WAIT. -/
theorem after_turns {start : State} (hm : start.pendM = false) (hc : start.pendC = false) (n : Nat) :
    ((after start turns n).pendM = false ∧ (after start turns n).pendC = false ∧
      (turns n = .seq → (after start turns n).phase ≠ 2#2)) ∧
    take (turns n) (after start turns n) = .next (after start turns (n + 1)) := by
  have runs : ∀ n, (turns n = .seq → (after start turns n).phase ≠ 2#2) →
      take (turns n) (after start turns n) = .next (after start turns (n + 1)) := by
    intro n hp
    rcases turns_seq_or_tmr n with h | h
    · obtain ⟨t, ht⟩ := take_seq_runs (hp h)
      exact after_succ (h ▸ ht)
    · obtain ⟨t, ht⟩ := take_tmr_runs (after start turns n)
      exact after_succ (h ▸ ht)
  have all : (after start turns n).pendM = false ∧ (after start turns n).pendC = false ∧
      (turns n = .seq → (after start turns n).phase ≠ 2#2) := by
    induction n with
    | zero => exact ⟨hm, hc, fun h => absurd h (by decide)⟩
    | succ n ih =>
      have ht := runs n ih.2.2
      obtain ⟨lm, lc⟩ := take_keeps_latches (turns_seq_or_tmr n) ht
      refine ⟨lm.trans ih.1, lc.trans ih.2.1, fun h => ?_⟩
      have hn : turns n = .tmr := by
        unfold turns at h ⊢
        split at h
        · cases h
        · rw [if_pos (by omega)]
      rw [hn] at ht
      exact take_tmr_ends_wait ht
  exact ⟨all, runs n all.2.2⟩

/-- With no edge pending, TMR and SEQ in turn are a fair run (R159). -/
theorem turns_fair {start : State} (hm : start.pendM = false) (hc : start.pendC = false) :
    FairRun (after start turns) turns where
  run := fun n => (after_turns hm hc n).2
  seq := fun n _ => ⟨2 * n + 1, by omega, by simp [turns]⟩
  svm := fun n hn => by
    have := hn n (Nat.le_refl n)
    rw [State.enabled_svm, (after_turns hm hc n).1.1] at this
    cases this
  svc := fun n hn => by
    have := hn n (Nat.le_refl n)
    rw [State.enabled_svc, (after_turns hm hc n).1.2.1] at this
    cases this
  tmr := fun n => ⟨2 * n, by omega, by simp [turns]⟩

/-- A mode change seen in GUARD, in WAIT, and none seen in DISPATCH. -/
theorem witness_FairRunsObserveAModeChange :
    (FairRun (after (exitState 0) turns) turns ∧ (after (exitState 0) turns 0).phase = 1#2 ∧
      (after (exitState 0) turns 0).mode ≠ (after (exitState 0) turns 0).entry) ∧
    (FairRun (after waitState turns) turns ∧ (after waitState turns 0).phase = 2#2 ∧
      (after waitState turns 0).mode ≠ (after waitState turns 0).entry) ∧
    (FairRun (after (mk 2 1 false false 0 0 0 true 0 0 0 0 0) turns) turns ∧
      (after (mk 2 1 false false 0 0 0 true 0 0 0 0 0) turns 0).phase = 0#2) :=
  ⟨⟨turns_fair rfl rfl, rfl, by decide⟩, ⟨turns_fair rfl rfl, rfl, by decide⟩, turns_fair rfl rfl, rfl⟩

/-- PulseCycling in GUARD at the start of its ramp, and in WAIT in the middle of the falling half. -/
def fallingState : State := mk 2 5 false false 2 2 2 false 3 0 2 0 2

theorem witness_FairPulseCyclingAdvancesOncePerPeriod :
    ∀ s ∈ [guardState 2, fallingState], FairRun (after s turns) turns ∧
      ((after s turns 0).phase = 1#2 ∨ (after s turns 0).phase = 2#2) ∧ (after s turns 0).mode = 2#2 ∧
      (after s turns 0).entry = 2#2 ∧ 1 ≤ (after s turns 0).maxl.toNat ∧
      OnRamp (after s turns 0).duty (after s turns 0).toAdd (after s turns 0).maxl ∧
      ∀ m, 0 ≤ m → turns m = .seq ∨ turns m = .tmr := by
  intro s hs
  simp only [List.mem_cons, List.not_mem_nil, or_false] at hs
  obtain rfl | rfl := hs
  · exact ⟨turns_fair rfl rfl, .inl rfl, rfl, rfl, by decide, .inl (by decide), fun m _ => turns_seq_or_tmr m⟩
  · exact ⟨turns_fair rfl rfl, .inr rfl, rfl, rfl, by decide, .inr (by decide), fun m _ => turns_seq_or_tmr m⟩

theorem witness_FairConstantCyclingAdvancesForever :
    FairRun (after (guardState 0) turns) turns ∧ (after (guardState 0) turns 0).params.wf = true ∧
    (after (guardState 0) turns 0).phase = 1#2 ∧ (after (guardState 0) turns 0).mode = 0#2 ∧
    (after (guardState 0) turns 0).entry = 0#2 ∧ ∀ m, 0 ≤ m → turns m = .seq ∨ turns m = .tmr :=
  ⟨turns_fair rfl rfl, by decide, rfl, rfl, rfl, fun m _ => turns_seq_or_tmr m⟩

end Sys2Proof.Machine.Tests
end

section
/-!
PROOFS. Scope: an op has its step exactly where it is enabled, an arm of SEQ exactly where R62 selects it; a step takes
the trace's next code or an enabled op whole; no step changes the parameters.
-/
namespace Sys2Proof.Machine

/-! ## The arms of SEQ: guarded by the condition of R62 -/

/-- Every arm of SEQ ends in `onArm`, and the condition it states is its row's of R62's table. -/
theorem exec_eq_onArm_selectedBy {i : Instr} (hi : i.op = some .seq) (s : State) :
    ∃ (c : Prop) (_ : Decidable c) (a : State), exec i s = s.onArm c a ∧ (c ↔ i.selectedBy s.control = true) := by
  cases i with
  | seqDispatch => exact ⟨_, _, _, rfl, by simp [Instr.selectedBy, State.control]⟩
  | seqExit => exact ⟨_, _, _, rfl, by simp [Instr.selectedBy, State.control]⟩
  | seqTickCc => exact ⟨_, _, _, rfl, by simp [Instr.selectedBy, State.control, and_assoc]⟩
  | seqTickCs => exact ⟨_, _, _, rfl, by simp [Instr.selectedBy, State.control, and_assoc]⟩
  | seqTickPc => exact ⟨_, _, _, rfl, by simp [Instr.selectedBy, State.control, and_assoc]⟩
  | seqTickPs => exact ⟨_, _, _, rfl, by simp [Instr.selectedBy, State.control, and_assoc]⟩
  | seqBadphase => exact ⟨_, _, _, rfl, by simp [Instr.selectedBy, State.control]⟩
  | _ => simp [Instr.op] at hi

/-- An arm of SEQ that R62 selects has its step. -/
theorem exec_runs_of_selectedBy {i : Instr} {s : State} (hi : i.op = some .seq) (h : i.selectedBy s.control = true) :
    ∃ t, exec i s = .next t := by
  obtain ⟨c, _, a, e, hc⟩ := exec_eq_onArm_selectedBy hi s
  exact ⟨a, e.trans (State.onArm_pos (hc.mpr h))⟩

/-- An arm of SEQ that R62 does not select answers that it is not this arm (log entry 6). -/
theorem exec_notThisArm {i : Instr} {s : State} (hi : i.op = some .seq) (h : i.selectedBy s.control = false) :
    exec i s = .fault (.notThisArm s.pos) := by
  obtain ⟨c, _, a, e, hc⟩ := exec_eq_onArm_selectedBy hi s
  exact e.trans (State.onArm_neg fun hcond => by simp [hc.mp hcond] at h)

/-! ## Taking a code, and taking an op -/

theorem takeCode_of_decode_ok {code : OpCode} {s : State} {i : Instr} (h : decode code s.control = .ok i) :
    takeCode code s = exec i s := by simp only [takeCode, h]

theorem takeCode_of_decode_error {code : OpCode} {s : State} {op : Op} (h : decode code s.control = .error op) :
    takeCode code s = .fault (.held op s.pos) := by simp only [takeCode, h]

/-- In WAIT, SEQ is held (R60, R110). -/
theorem take_seq_held {s : State} (h : s.phase = 2#2) : take .seq s = .fault (.held .seq s.pos) :=
  takeCode_of_decode_error (by simp [decode, seqArm, State.control, h])

/-- An enabled op has its step (R10, R60). -/
theorem take_runs_of_enabled {op : Op} {s : State} (h : s.enabled op = true) : ∃ t, take op s = .next t := by
  cases op with
  | rst => exact ⟨_, exec_rst s⟩
  | seq => exact take_seq_runs (s.enabled_seq.mp h)
  | tmr => exact take_tmr_runs s
  | edm => exact ⟨_, exec_edm s⟩
  | edc => exact ⟨_, exec_edc s⟩
  | svm => exact ⟨_, take_svm_eq_next.mpr ⟨h, rfl⟩⟩
  | svc => exact ⟨_, take_svc_eq_next.mpr ⟨h, rfl⟩⟩

/-- An op that is not enabled is held (R10, R130): only SEQ, SVM and SVC can be that. -/
theorem take_held_of_not_enabled {op : Op} {s : State} (h : s.enabled op = false) :
    take op s = .fault (.held op s.pos) := by
  cases op with
  | seq => exact take_seq_held (by simpa [State.enabled] using h)
  | svm => exact take_svm_held h
  | svc => exact take_svc_held h
  | rst | tmr | edm | edc => cases h

/-- An op that has a step is enabled (R10). -/
theorem enabled_of_take {op : Op} {s t : State} (h : take op s = .next t) : s.enabled op = true := by
  by_contra hne
  rw [take_held_of_not_enabled (Bool.eq_false_iff.mpr hne)] at h
  cases h

/-! ## A step, with a trace and without -/

/-- With a code left in the trace, the step takes that code (R69, R71). -/
theorem step_of_trace_cons {s : State} {code : OpCode} {rest : List OpCode} (h : s.trace = code :: rest) :
    step s = takeCode code { s with trace := rest, pos := s.pos + 1 } := by
  simp [step, State.nextCode, State.advance, h]

/-- With no trace left, moving past the next code only counts the op. -/
theorem State.advance_of_trace_nil {s : State} (h : s.trace = []) : s.advance = { s with pos := s.pos + 1 } := by
  simp [State.advance, h]

/-- With no trace left, the step takes the op of the free choice (R11, R135). -/
theorem step_of_trace_nil {s : State} (h : s.trace = []) : step s = take s.freeOp s.advance := by
  simp only [step, take, State.nextCode, h]

/-! ## The parameters -/

/-- No instruction changes the parameters (R6, R39). -/
theorem exec_keeps_params {i : Instr} {s t : State} (h : exec i s = .next t) : t.params = s.params := by
  cases i with
  | rst => cases h; rfl
  | seqDispatch => obtain ⟨_, rfl⟩ := exec_seqDispatch_eq_next.mp h; rfl
  | seqExit => obtain ⟨_, rfl⟩ := exec_seqExit_eq_next.mp h; rfl
  | seqTickCc => obtain ⟨_, rfl⟩ := exec_seqTickCc_eq_next.mp h; rfl
  | seqTickCs => obtain ⟨_, rfl⟩ := exec_seqTickCs_eq_next.mp h; rfl
  | seqTickPc => obtain ⟨_, rfl⟩ := exec_seqTickPc_eq_next.mp h; rfl
  | seqTickPs => obtain ⟨_, rfl⟩ := exec_seqTickPs_eq_next.mp h; rfl
  | seqBadphase => obtain ⟨_, rfl⟩ := exec_seqBadphase_eq_next.mp h; rfl
  | tmr => rcases exec_tmr_cases s with ⟨_, e⟩ | ⟨_, _, e⟩ | ⟨_, _, e⟩ <;> rw [e] at h <;> cases h <;> rfl
  | edm => cases h; rfl
  | edc => cases h; rfl
  | svm => obtain ⟨_, rfl⟩ := exec_svm_eq_next.mp h; rfl
  | svc => obtain ⟨_, rfl⟩ := exec_svc_eq_next.mp h; rfl
  | reservedZero => cases h; rfl
  | reservedHigh code => cases h; rfl

/-! ## The obligations -/

/-- Settles O46: an op's step and its hold by cases on the op, an arm's by the condition it is guarded with. -/
theorem opStepsExactlyWhenEnabled : Obligations.OpStepsExactlyWhenEnabled := by
  unfold Obligations.OpStepsExactlyWhenEnabled
  refine ⟨fun op s => ⟨⟨?_, take_runs_of_enabled⟩, take_held_of_not_enabled⟩,
    fun i s hi => ⟨⟨?_, exec_runs_of_selectedBy hi⟩, exec_notThisArm hi⟩⟩
  · rintro ⟨t, ht⟩
    exact enabled_of_take ht
  · rintro ⟨t, ht⟩
    exact selectedBy_of_exec hi ht

/-- Settles O48: the op of the free choice is enabled whatever the choice, and what is enabled has its step. -/
theorem freeStepTakesAnEnabledOp : Obligations.FreeStepTakesAnEnabledOp := by
  unfold Obligations.FreeStepTakesAnEnabledOp
  intro s hnil
  have hstep := step_of_trace_nil hnil
  have henabled : s.advance.enabled s.freeOp = true := (s.advance_enabled _).trans s.freeOp_enabled
  obtain ⟨t, ht⟩ := take_runs_of_enabled henabled
  exact ⟨s.freeOp, t, s.freeOp_enabled, State.advance_of_trace_nil hnil ▸ hstep, hstep.trans ht⟩

/-- Settles O23: a step is some instruction after the schedule has moved on, and neither changes the parameters. -/
theorem parametersAreFixed : Obligations.ParametersAreFixed := by
  unfold Obligations.ParametersAreFixed
  intro s t h
  obtain ⟨i, hi⟩ := step_eq_next h
  exact (exec_keeps_params hi).trans s.advance_params

/-- Settles O47: with the trace's first code taken off, a step is that code taken, decoded in the same control state. -/
theorem stepRunsTheDecodedInstruction : Obligations.StepRunsTheDecodedInstruction := by
  unfold Obligations.StepRunsTheDecodedInstruction
  intro s code rest htrace
  have hstep := step_of_trace_cons htrace
  exact ⟨fun i hi => hstep.trans (takeCode_of_decode_ok hi), fun op hop => hstep.trans (takeCode_of_decode_error hop)⟩

end Sys2Proof.Machine
end

section
/-!
PROOFS. State: what each instruction writes, in one place, and so who writes each register and mark; SEQ and TMR read no
pending latch; R38's invariants at reset, kept by every step, and of every reachable state.
-/
namespace Sys2Proof.Machine

/-! ## What each instruction writes -/

/-- TMR's three cases as one update: PHASE where a WAIT ends, DWELL where ConstantCycling runs (R118). -/
def State.strobe (s : State) : State :=
  { s with
    phase := if s.phase = 2#2 then 1#2 else s.phase
    dwell := if s.phase = 1#2 ∧ s.entry = 0#2 then s.dwellTick else s.dwell }

theorem exec_tmr (s : State) : exec .tmr s = .next s.strobe := by
  rcases exec_tmr_cases s with ⟨hp, e⟩ | ⟨hp, he, e⟩ | ⟨hp, hc, e⟩
  · simp [e, State.strobe, hp]
  · simp [e, State.strobe, hp, he]
  · simp [e, State.strobe, hp, hc]

/-- What an instruction writes where it has its step: its meaning without the condition it has it under. -/
def State.apply (s : State) : Instr → State
  | .rst => s.resetRegisters
  | .seqDispatch => { s with
      entry := s.mode, duty := 0#s.params.dutyWidth, toAdd := true, maxl := s.scaledMax,
      dwell := 0#s.params.dwellWidth, phase := 1#2 }
  | .seqExit => { s with
      ch := if Mode.isPulse s.entry then zeroAll s.params.dutyWidth else s.ch, phase := 0#2 }
  | .seqTickCc => { s with
      color := s.colorAfterPoll, dwell := if s.dwellReached then 0#s.params.dwellWidth else s.dwell,
      ch := drive s.colorAfterPoll s.maxl, phase := 1#2 }
  | .seqTickCs => { s with ch := drive s.color s.maxl, phase := 1#2 }
  | .seqTickPc => { s with
      duty := s.rampStep.1, toAdd := s.rampStep.2, color := s.colorAfterPulse,
      ch := drive s.colorAfterPulse s.rampStep.1, phase := 2#2 }
  | .seqTickPs => { s with
      duty := s.rampStep.1, toAdd := s.rampStep.2, ch := drive s.color s.rampStep.1, phase := 2#2 }
  | .seqBadphase => s.markFaulted
  | .tmr => s.strobe
  | .edm => s.latchEdge .mode
  | .edc => s.latchEdge .color
  | .svm => s.service .mode
  | .svc => s.service .color
  | .reservedZero => s.markRefused 0#4
  | .reservedHigh code => s.markRefused code

/-- Whatever its condition, an instruction that answers a next state answers what it writes. -/
theorem eq_apply_of_exec {i : Instr} {s t : State} (h : exec i s = .next t) : t = s.apply i := by
  cases i with
  | seqDispatch => exact (exec_seqDispatch_eq_next.mp h).2
  | seqExit => exact (exec_seqExit_eq_next.mp h).2
  | seqTickCc => exact (exec_seqTickCc_eq_next.mp h).2
  | seqTickCs => exact (exec_seqTickCs_eq_next.mp h).2
  | seqTickPc => exact (exec_seqTickPc_eq_next.mp h).2
  | seqTickPs => exact (exec_seqTickPs_eq_next.mp h).2
  | seqBadphase => exact (exec_seqBadphase_eq_next.mp h).2
  | svm => exact (exec_svm_eq_next.mp h).2
  | svc => exact (exec_svc_eq_next.mp h).2
  | tmr => rw [exec_tmr] at h; cases h; rfl
  | rst | edm | edc | reservedZero | reservedHigh code => cases h; rfl

/-! ## The marks (R32) -/

/-- Only SEQ with PHASE = 3 writes FAULTED, and it sets it (R117). -/
theorem exec_faulted {i : Instr} {s t : State} (h : exec i s = .next t) :
    t.faulted = s.faulted ∨ t.faulted = true ∧ i = .seqBadphase ∧ s.phase = 3#2 := by
  by_cases hi : i = .seqBadphase
  · subst hi
    obtain ⟨hp, rfl⟩ := exec_seqBadphase_eq_next.mp h
    exact .inr ⟨rfl, rfl, hp⟩
  · obtain rfl := eq_apply_of_exec h
    left
    cases i with
    | seqBadphase => exact absurd rfl hi
    | _ => rfl

/-- Only a reserved code writes REFUSED, and it sets it (R61). -/
theorem apply_refused (s : State) (i : Instr) :
    (s.apply i).refused = s.refused ∨
      (s.apply i).refused = true ∧ (i = .reservedZero ∨ ∃ code, i = .reservedHigh code) := by
  cases i with
  | reservedZero => exact .inr ⟨rfl, .inl rfl⟩
  | reservedHigh code => exact .inr ⟨rfl, .inr ⟨code, rfl⟩⟩
  | _ => exact .inl rfl

/-- The record of refusals grows only at its end (R130). -/
theorem refusals_prefix_apply (s : State) (i : Instr) : s.refusals <+: (s.apply i).refusals := by
  cases i with
  | reservedZero => exact List.prefix_append _ _
  | reservedHigh code => exact List.prefix_append _ _
  | _ => exact List.prefix_rfl

/-! ## COLOR = 0 (R23, R82) -/

/-- An advance that a condition may hold back gives 0 only where it is held back and COLOR is 0 already. -/
theorem eq_zero_of_advAuto_ite {c : BitVec 3} {b : Bool} (h : (if b then advAuto c else c) = 0#3) : c = 0#3 := by
  cases b with
  | true => exact absurd h (advAuto_ne c).1
  | false => exact h

/-! ## The pending latches (R24) -/

/-- The state with other values in the pending latches. -/
def State.withLatches (s : State) (a b : Bool) : State := { s with pendM := a, pendC := b }

@[simp] theorem State.withLatches_control (s : State) (a b : Bool) : (s.withLatches a b).control = s.control := rfl

/-- What an instruction of SEQ or TMR writes does not depend on the latches, and they are not written. -/
theorem State.apply_withLatches {i : Instr} (hi : i.op = some .seq ∨ i.op = some .tmr) (s : State) (a b : Bool) :
    (s.withLatches a b).apply i = (s.apply i).withLatches a b := by
  cases i with
  | seqDispatch | seqExit | seqTickCc | seqTickCs | seqTickPc | seqTickPs | seqBadphase | tmr => rfl
  | rst | edm | edc | svm | svc | reservedZero | reservedHigh code => simp [Instr.op] at hi

/-- The arm that SEQ takes is selected by the control state alone, so it is taken with any latches (R62). -/
theorem take_seq_withLatches {s t : State} (a b : Bool) (h : take .seq s = .next t) :
    take .seq (s.withLatches a b) = .next (t.withLatches a b) := by
  obtain ⟨i, hi, hx⟩ := take_eq_next h
  have hsel : i.selectedBy (s.withLatches a b).control = true := by
    rw [State.withLatches_control]
    exact selectedBy_of_exec hi hx
  obtain ⟨u, hu⟩ := exec_runs_of_selectedBy hi hsel
  have hut : u = t.withLatches a b := by
    rw [eq_apply_of_exec hu, eq_apply_of_exec hx, State.apply_withLatches (.inl hi)]
  exact hut ▸ (take_seq_of_exec hi hu).2

theorem take_tmr_withLatches {s t : State} (a b : Bool) (h : take .tmr s = .next t) :
    take .tmr (s.withLatches a b) = .next (t.withLatches a b) := by
  obtain rfl : t = s.apply .tmr := eq_apply_of_exec h
  rw [← State.apply_withLatches (.inr rfl)]
  exact exec_tmr _

/-! ## The invariants (R38) -/

/-- RST establishes every invariant by itself but that the run has not faulted, which it keeps (R32, R150). -/
theorem inv_resetRegisters {s : State} (h : s.faulted = false) : Inv s.resetRegisters where
  phase_used := by simp
  wait_pulse := by simp
  max_latched := by simp
  duty_le := by simp
  on_ramp := by simp
  at_zero := by simp
  dwell_le := by simp
  ch_le := by simp
  not_faulted := h

/-- Every channel that is driven with `v` or 0 is at most what `v` is at most (R100). -/
theorem drive_get_le {w n : Nat} (c : BitVec 3) {v : BitVec w} (h : v.toNat ≤ n) (i : Fin 3) :
    ((drive c v).get i).toNat ≤ n := by
  rw [drive_get]
  split
  · exact h
  · simp

theorem State.dwellTick_le (s : State) : s.dwellTick.toNat ≤ s.params.dwellTicks := by
  rw [State.dwellTick, BitVec.toNat_ofNat]
  exact (Nat.mod_le _ _).trans (Nat.min_le_right _ _)

section
variable {s : State} (h : Inv s)
include h

/-- No invariant speaks of MODE, COLOR, the latches, REFUSED with its record, or the schedule. -/
theorem Inv.of_unconstrained (mode : BitVec 2) (color : BitVec 3) (pendM pendC refused : Bool)
    (refusals : List RefusedCode) (trace : List OpCode) (pos : Nat) :
    Inv { s with
      mode := mode, color := color, pendM := pendM, pendC := pendC, refused := refused, refusals := refusals,
      trace := trace, pos := pos } :=
  { h with }

/-- The step of the ramp keeps the three invariants of the pair (R91, R93, R95). -/
theorem Inv.rampStep :
    s.rampStep.1.toNat ≤ s.maxl.toNat ∧ (1 ≤ s.maxl.toNat → OnRamp s.rampStep.1 s.rampStep.2 s.maxl) ∧
      (s.maxl.toNat = 0 → s.rampStep.1.toNat = 0 ∧ s.rampStep.2 = true) := by
  by_cases hm : s.maxl.toNat = 0
  · have hmaxl : s.maxl = 0#s.params.dutyWidth := BitVec.eq_of_toNat_eq (by simpa using hm)
    have hstep : s.rampStep = (s.duty, s.toAdd) := by rw [State.rampStep, hmaxl, dutyStep_zero]
    rw [hstep]
    exact ⟨h.duty_le, h.on_ramp, h.at_zero⟩
  · have hr : OnRamp s.rampStep.1 s.rampStep.2 s.maxl := (h.on_ramp (Nat.pos_of_ne_zero hm)).step
    exact ⟨hr.le, fun _ => hr, fun h0 => absurd h0 hm⟩

/-- DISPATCH latches the maximum and restarts the pair at (0, 1), which is on the ramp of any maximum (R111). -/
theorem Inv.apply_seqDispatch : Inv (s.apply .seqDispatch) :=
  { h with
    phase_used := by simp [State.apply]
    wait_pulse := by simp [State.apply]
    max_latched := fun _ => rfl
    duty_le := by simp [State.apply]
    on_ramp := fun hm => .inl ⟨rfl, by simpa [State.apply] using hm⟩
    at_zero := by simp [State.apply]
    dwell_le := by simp [State.apply] }

/-- EXIT keeps the channels or zeroes them (R112). -/
theorem Inv.apply_seqExit : Inv (s.apply .seqExit) :=
  { h with
    phase_used := by simp [State.apply]
    wait_pulse := by simp [State.apply]
    max_latched := by simp [State.apply]
    ch_le := fun i => by
      simp only [State.apply]
      split
      · simp
      · exact h.ch_le i }

/-- In GUARD the latched maximum is the bound of the channels. -/
theorem Inv.maxl_le (hp : s.phase = 1#2) : s.maxl.toNat ≤ s.scaledMax.toNat := by
  rw [h.max_latched (by simp [hp])]

/-- A tick of a pulse mode, whatever the colour it drives with (R113, R114). -/
theorem Inv.pulseTick (hp : s.phase = 1#2) (he : s.entry = 2#2 ∨ s.entry = 3#2) (c : BitVec 3) :
    Inv { s with
      duty := s.rampStep.1, toAdd := s.rampStep.2, color := c, ch := drive c s.rampStep.1, phase := 2#2 } := by
  obtain ⟨hle, hramp, hzero⟩ := h.rampStep
  exact { h with
    phase_used := by simp
    wait_pulse := fun _ => he
    max_latched := fun _ => h.max_latched (by simp [hp])
    duty_le := hle
    on_ramp := hramp
    at_zero := hzero
    ch_le := drive_get_le c (hle.trans (h.maxl_le hp)) }

/-- A poll of a constant mode, whatever the colour it drives with and the dwell it leaves within bounds (R115, R116). -/
theorem Inv.poll (hp : s.phase = 1#2) (c : BitVec 3) {d : BitVec s.params.dwellWidth}
    (hd : d.toNat ≤ s.params.dwellTicks) :
    Inv { s with color := c, dwell := d, ch := drive c s.maxl, phase := 1#2 } :=
  { h with
    phase_used := by simp
    wait_pulse := by simp
    max_latched := fun _ => h.max_latched (by simp [hp])
    dwell_le := hd
    ch_le := drive_get_le c (h.maxl_le hp) }

/-- A poll leaves the dwell or restarts it (R116). -/
theorem Inv.dwellAfterPoll_le :
    (if s.dwellReached then 0#s.params.dwellWidth else s.dwell).toNat ≤ s.params.dwellTicks := by
  split
  · simp
  · exact h.dwell_le

/-- A WAIT ends in the GUARD of the handler whose maximum is latched (R118). -/
theorem Inv.endWait (hp : s.phase = 2#2) : Inv { s with phase := 1#2 } :=
  { h with
    phase_used := by simp
    wait_pulse := by simp
    max_latched := fun _ => h.max_latched (by simp [hp]) }

/-- Every instruction keeps the invariants: SEQ with PHASE = 3 cannot come, and each other row writes within them. -/
theorem Inv.of_exec {i : Instr} {t : State} (hx : exec i s = .next t) : Inv t := by
  cases i with
  | rst => cases hx; exact inv_resetRegisters h.not_faulted
  | seqDispatch => obtain ⟨_, rfl⟩ := exec_seqDispatch_eq_next.mp hx; exact h.apply_seqDispatch
  | seqExit => obtain ⟨_, rfl⟩ := exec_seqExit_eq_next.mp hx; exact h.apply_seqExit
  | seqTickCc => obtain ⟨⟨hp, _⟩, rfl⟩ := exec_seqTickCc_eq_next.mp hx; exact h.poll hp _ h.dwellAfterPoll_le
  | seqTickCs => obtain ⟨⟨hp, _⟩, rfl⟩ := exec_seqTickCs_eq_next.mp hx; exact h.poll hp _ h.dwell_le
  | seqTickPc => obtain ⟨⟨hp, _, he⟩, rfl⟩ := exec_seqTickPc_eq_next.mp hx; exact h.pulseTick hp (.inl he) _
  | seqTickPs => obtain ⟨⟨hp, _, he⟩, rfl⟩ := exec_seqTickPs_eq_next.mp hx; exact h.pulseTick hp (.inr he) _
  | seqBadphase => exact absurd (exec_seqBadphase_eq_next.mp hx).1 h.phase_used
  | tmr =>
    rcases exec_tmr_cases s with ⟨hp, e⟩ | ⟨_, _, e⟩ | ⟨_, _, e⟩ <;> cases e.symm.trans hx
    · exact h.endWait hp
    · exact { h with dwell_le := s.dwellTick_le }
    · exact h
  | svm => obtain ⟨_, rfl⟩ := exec_svm_eq_next.mp hx; exact h.of_unconstrained ..
  | svc => obtain ⟨_, rfl⟩ := exec_svc_eq_next.mp hx; exact h.of_unconstrained ..
  | edm | edc | reservedZero | reservedHigh code => cases hx; exact h.of_unconstrained ..

/-- Every step keeps the invariants: the schedule moves on, and one instruction runs. -/
theorem Inv.of_step {t : State} (ht : step s = .next t) : Inv t := by
  obtain ⟨i, hi⟩ := step_eq_next ht
  have hadvance : Inv s.advance := h.of_unconstrained ..
  exact hadvance.of_exec hi

end

/-- A run's start is what RST leaves there, so the invariants hold (R38, R153). -/
theorem inv_start (p : Params) (trace : List OpCode) : Inv { State.resetWith p with trace := trace } :=
  inv_resetRegisters (s := { State.resetWith p with trace := trace }) rfl

/-- The parameters of a run are those it starts with, which are within R6's constraints. -/
theorem Reachable.inv_and_wf {s : State} (h : Reachable s) : Inv s ∧ s.params.wf = true := by
  induction h with
  | start p trace hp => exact ⟨inv_start p trace, hp⟩
  | next _ ht ih => exact ⟨ih.1.of_step ht, parametersAreFixed _ _ ht ▸ ih.2⟩

/-! ## The obligations -/

/-- Settles O52: the invariants go through each instruction, and no other state than one with PHASE = 3 faults. -/
theorem invariantsKeptByEveryStep : Obligations.InvariantsKeptByEveryStep := by
  unfold Obligations.InvariantsKeptByEveryStep
  exact fun _ _ h ht => h.of_step ht

/-- Settles O20: what each instruction writes shows the registers it leaves. -/
theorem sharedRegisterWriters : Obligations.SharedRegisterWriters := by
  unfold Obligations.SharedRegisterWriters
  intro i s t h
  obtain rfl := eq_apply_of_exec h
  cases i with
  | seqDispatch | seqExit | seqTickCs | seqTickPs | seqBadphase | tmr | reservedZero | reservedHigh code =>
    exact ⟨absurd rfl, absurd rfl, absurd rfl, absurd rfl⟩
  | rst | seqTickCc | seqTickPc | edm | edc | svm | svc => simp [State.apply]

/-- Settles O21: what each instruction writes shows the registers it leaves; the polls, which write GUARD to PHASE, have
their step only in GUARD. -/
theorem sequencerRegisterWriters : Obligations.SequencerRegisterWriters := by
  unfold Obligations.SequencerRegisterWriters
  intro i s t h
  cases i with
  | seqTickCc =>
    obtain ⟨⟨hp, _⟩, rfl⟩ := exec_seqTickCc_eq_next.mp h
    simp [hp]
  | seqTickCs =>
    obtain ⟨⟨hp, _⟩, rfl⟩ := exec_seqTickCs_eq_next.mp h
    simp [hp]
  | rst | seqDispatch | seqExit | seqTickPc | seqTickPs | tmr =>
    obtain rfl := eq_apply_of_exec h
    simp [State.apply, State.strobe]
  | seqBadphase | edm | edc | svm | svc | reservedZero | reservedHigh code =>
    obtain rfl := eq_apply_of_exec h
    exact ⟨absurd rfl, absurd rfl, absurd rfl, absurd rfl, absurd rfl, absurd rfl⟩

/-- Settles O19: of the writers of COLOR, the autonomous advances give 0 only from 0, and RST gives 1. -/
theorem onlyTheButtonSelectsAllOff : Obligations.OnlyTheButtonSelectsAllOff := by
  unfold Obligations.OnlyTheButtonSelectsAllOff
  refine ⟨by decide, fun i s t h h0 => ?_⟩
  by_cases hc : t.color = s.color
  · exact .inr (hc ▸ h0)
  have hzero : t.color = 0#3 := BitVec.eq_of_toNat_eq h0
  obtain ⟨-, hwriters, -⟩ := sharedRegisterWriters i s t h
  obtain rfl | rfl | rfl | rfl := hwriters hc
  · exact .inl rfl
  · obtain ⟨_, rfl⟩ := exec_seqTickPc_eq_next.mp h
    exact .inr (by rw [eq_zero_of_advAuto_ite hzero]; rfl)
  · obtain ⟨_, rfl⟩ := exec_seqTickCc_eq_next.mp h
    exact .inr (by rw [eq_zero_of_advAuto_ite hzero]; rfl)
  · cases h
    exact absurd hzero (by simp)

/-- Settles O24: each mark is kept or set, which makes it sticky. -/
theorem marksAreSticky : Obligations.MarksAreSticky := by
  unfold Obligations.MarksAreSticky
  refine ⟨fun p => ⟨rfl, rfl⟩, fun i s t h => ?_⟩
  have hfaulted := exec_faulted h
  obtain rfl := eq_apply_of_exec h
  have hrefused := apply_refused s i
  exact ⟨fun hs => hfaulted.elim (·.trans hs) And.left, fun hs => hrefused.elim (·.trans hs) And.left,
    refusals_prefix_apply s i, hfaulted, hrefused⟩

/-- Settles O44: the latches neither select the arm of SEQ nor enter what it or TMR writes. -/
theorem sequencerIgnoresTheLatches : Obligations.SequencerIgnoresTheLatches := by
  unfold Obligations.SequencerIgnoresTheLatches
  rintro s t a b op (rfl | rfl) h
  · exact take_seq_withLatches a b h
  · exact take_tmr_withLatches a b h

/-- Settles O53: induction along the run; a step from a reachable state is to a reachable one, where nothing has
faulted. -/
theorem reachableStatesAreSafe : Obligations.ReachableStatesAreSafe := by
  unfold Obligations.ReachableStatesAreSafe
  intro s h
  obtain ⟨hinv, hwf⟩ := h.inv_and_wf
  exact ⟨hinv, hwf, fun t ht => (hinv.of_step ht).not_faulted⟩

/-- Settles O51: the reset state is a run's start with the empty trace. -/
theorem invariantsHoldAtReset : Obligations.InvariantsHoldAtReset := by
  unfold Obligations.InvariantsHoldAtReset
  exact ⟨inv_start Config.params [], inv_start⟩

end Sys2Proof.Machine
end

section
/-!
PROOFS. Memory: the read-modify-writes of COLOR raced in both orders, and the ops' effects on the pending latches taken
twice (20_memory.md, R54 and R57).
-/
namespace Sys2Proof.Machine

/-! ## The race on COLOR (R57) -/

/-- SEQ takes the arm that R62 selects, and what it does is what that arm writes. -/
theorem take_seq_of_selectedBy {i : Instr} {s : State} (hi : i.op = some .seq) (h : i.selectedBy s.control = true) :
    take .seq s = .next (s.apply i) := by
  obtain ⟨t, ht⟩ := exec_runs_of_selectedBy hi h
  obtain rfl := eq_apply_of_exec ht
  exact (take_seq_of_exec hi ht).2

/-- The next SEQ advances COLOR by itself: in GUARD with the mode unchanged, a tick of PulseCycling that returns to 0 or
a poll of ConstantCycling with the dwell over (R114, R116). -/
def State.AdvanceDue (s : State) : Prop :=
  s.phase = 1#2 ∧ s.mode = s.entry ∧
    (s.entry = 2#2 ∧ s.rampReturns = true ∨ s.entry = 0#2 ∧ s.dwellReached = true)

/-- SVC reads and writes nothing that an autonomous advance is due by. -/
theorem State.AdvanceDue.service_color {s : State} (h : s.AdvanceDue) : (s.service .color).AdvanceDue := h

/-- Where an autonomous advance is due, SEQ applies it to the colour it finds, and leaves PEND_C. -/
theorem State.AdvanceDue.take_seq {s : State} (h : s.AdvanceDue) :
    ∃ t, take .seq s = .next t ∧ t.color = advAuto s.color ∧ t.pendC = s.pendC := by
  obtain ⟨hphase, hmode, ⟨hentry, hreturns⟩ | ⟨hentry, hdwell⟩⟩ := h
  · have hsel : Instr.seqTickPc.selectedBy s.control = true := by
      simp [Instr.selectedBy, State.control, hphase, hmode, hentry]
    exact ⟨_, take_seq_of_selectedBy rfl hsel, if_pos hreturns, rfl⟩
  · have hsel : Instr.seqTickCc.selectedBy s.control = true := by
      simp [Instr.selectedBy, State.control, hphase, hmode, hentry]
    exact ⟨_, take_seq_of_selectedBy rfl hsel, if_pos hdwell, rfl⟩

/-- The two advances commute but where one of the orders meets the colour 0 that ADV_AUTO leaves out (R81, R82). -/
theorem advAuto_advBtn_ne_iff :
    ∀ c : BitVec 3, advAuto (advBtn c) ≠ advBtn (advAuto c) ↔ c = 6#3 ∨ c = 7#3 := by decide

/-! ## The obligations -/

/-- Settles O18: SVC leaves the autonomous advance due and SEQ leaves PEND_C set, so each order runs with both advances;
the results are the two compositions of the advances. -/
theorem colorRaceLosesNoUpdate : Obligations.ColorRaceLosesNoUpdate := by
  unfold Obligations.ColorRaceLosesNoUpdate
  intro s hphase hmode hpend hready
  have hdue : s.AdvanceDue := ⟨hphase, hmode, hready⟩
  have hsvc : take .svc s = .next (s.service .color) := take_svc_eq_next.mpr ⟨hpend, rfl⟩
  obtain ⟨t, ht, htcolor, -⟩ := hdue.service_color.take_seq
  obtain ⟨u, hu, hucolor, hupend⟩ := hdue.take_seq
  have husvc : take .svc u = .next (u.service .color) := take_svc_eq_next.mpr ⟨hupend.trans hpend, rfl⟩
  have htc : t.color = advAuto (advBtn s.color) := htcolor
  have huc : (u.service .color).color = advBtn (advAuto s.color) := congrArg advBtn hucolor
  refine ⟨t, u.service .color, (runOps_cons hsvc).trans (runOps_cons ht), (runOps_cons hu).trans (runOps_cons husvc),
    htc, huc, ?_⟩
  rw [htc, huc]
  exact advAuto_advBtn_ne_iff s.color

/-- Settles O45: SEQ and TMR write no latch, and RST, EDM and EDC write a latch with one value, whatever it holds. -/
theorem latchEffectsAreIdempotent : Obligations.LatchEffectsAreIdempotent := by
  unfold Obligations.LatchEffectsAreIdempotent
  intro op s t u hsvm hsvc ht hu
  cases op with
  | seq => exact take_keeps_latches (.inl rfl) hu
  | tmr => exact take_keeps_latches (.inr rfl) hu
  | rst | edm | edc => cases ht; cases hu; exact ⟨rfl, rfl⟩
  | svm => exact absurd rfl hsvm
  | svc => exact absurd rfl hsvc

end Sys2Proof.Machine
end

section
/-!
PROOFS. Encoding: the decoder and the encoder agree on every row of the table; a hex trace reads back; stepping the
machine through a trace runs its ops, and where one is held the trace is reported as stuck at its line
(30_encoding.md).
-/
namespace Sys2Proof.Machine

/-! ## The decoder and the encoder (R60 to R62) -/

/-- Every well-formed row is read back from its code where R62 selects it: each row has this lemma of its own. -/
theorem decode_encode {i : Instr} {c : Control} (hwf : i.wf = true) (hsel : i.selectedBy c = true) :
    decode (encode i) c = .ok i := by
  cases i with
  | rst => exact Laws.RoundTrip.rst hwf c hsel
  | seqDispatch => exact Laws.RoundTrip.seqDispatch hwf c hsel
  | seqExit => exact Laws.RoundTrip.seqExit hwf c hsel
  | seqTickCc => exact Laws.RoundTrip.seqTickCc hwf c hsel
  | seqTickCs => exact Laws.RoundTrip.seqTickCs hwf c hsel
  | seqTickPc => exact Laws.RoundTrip.seqTickPc hwf c hsel
  | seqTickPs => exact Laws.RoundTrip.seqTickPs hwf c hsel
  | seqBadphase => exact Laws.RoundTrip.seqBadphase hwf c hsel
  | tmr => exact Laws.RoundTrip.tmr hwf c hsel
  | edm => exact Laws.RoundTrip.edm hwf c hsel
  | edc => exact Laws.RoundTrip.edc hwf c hsel
  | svm => exact Laws.RoundTrip.svm hwf c hsel
  | svc => exact Laws.RoundTrip.svc hwf c hsel
  | reservedZero => exact Laws.RoundTrip.reservedZero hwf c hsel
  | reservedHigh code => exact Laws.RoundTrip.reservedHigh code hwf c hsel

/-- A reserved code is its own row, in every control state (R61). -/
theorem decode_of_opOf_none {code : OpCode} (h : opOf code = none) (c : Control) :
    decode code c = .ok (if code = 0#4 then .reservedZero else .reservedHigh code) := by
  simp only [decode, h]
  split <;> rfl

/-- SEQ is held exactly in WAIT, and no other op is held in its place (R60, R62). -/
theorem seqArm_eq_error {c : Control} {op : Op} : seqArm c = .error op ↔ op = .seq ∧ c.phase = 2#2 := by
  rcases seqArm_cases c with ⟨hp, e⟩ | ⟨hp, -, e⟩ | ⟨hp, -, -, e⟩ | ⟨hp, -, -, e⟩ | ⟨hp, -, -, e⟩ | ⟨hp, -, -, e⟩ |
    ⟨hp, e⟩ | ⟨hp, e⟩ <;> simp [e, hp, eq_comm]

/-- The arm that SEQ takes is an arm of SEQ, and its own condition holds (R62). -/
theorem selectedBy_of_seqArm {c : Control} {i : Instr} (h : seqArm c = .ok i) :
    i.wf = true ∧ encode i = Op.code .seq ∧ i.selectedBy c = true := by
  rcases seqArm_cases c with ⟨hp, e⟩ | ⟨hp, hm, e⟩ | ⟨hp, hm, he, e⟩ | ⟨hp, hm, he, e⟩ | ⟨hp, hm, he, e⟩ |
    ⟨hp, hm, he, e⟩ | ⟨-, e⟩ | ⟨hp, e⟩ <;> rw [e] at h <;> cases h
  all_goals exact ⟨rfl, rfl, by simp [Instr.selectedBy, *]⟩

/-- What the decoder answers is well formed, has the code that was read, and is selected (R60 to R62). -/
theorem encode_of_decode {code : OpCode} {c : Control} {i : Instr} (h : decode code c = .ok i) :
    i.wf = true ∧ encode i = code ∧ i.selectedBy c = true := by
  cases hop : opOf code with
  | none =>
    rw [decode_of_opOf_none hop] at h
    by_cases h0 : code = 0#4
    · rw [if_pos h0] at h; cases h; exact ⟨rfl, h0.symm, rfl⟩
    · rw [if_neg h0] at h; cases h; exact ⟨reserved_bit hop h0, rfl, rfl⟩
  | some op =>
    obtain rfl := opOf_eq_some hop
    cases op with
    | seq => exact selectedBy_of_seqArm h
    | rst | tmr | edm | edc | svm | svc => cases h; exact ⟨rfl, rfl, rfl⟩

/-- The decoder answers that an op is held exactly for SEQ in WAIT (R60, R62). -/
theorem decode_eq_error {code : OpCode} {c : Control} {op : Op} :
    decode code c = .error op ↔ op = .seq ∧ code = Op.code .seq ∧ c.phase = 2#2 := by
  constructor
  · intro h
    cases hop : opOf code with
    | none => rw [decode_of_opOf_none hop] at h; cases h
    | some o =>
      obtain rfl := opOf_eq_some hop
      cases o with
      | seq =>
        obtain ⟨hseq, hwait⟩ := seqArm_eq_error.mp h
        exact ⟨hseq, rfl, hwait⟩
      | rst | tmr | edm | edc | svm | svc => cases h
  · rintro ⟨hseq, rfl, hwait⟩
    exact seqArm_eq_error.mpr ⟨hseq, hwait⟩

/-- A row's op is the one that its code selects; a reserved row has none, and its code selects none (R60, R61). -/
theorem op_eq_opOf_encode {i : Instr} (hwf : i.wf = true) : i.op = opOf (encode i) := by
  cases i with
  | reservedHigh code =>
    have hnone : ∀ k : OpCode, k.getLsbD 3 = true → none = opOf k := by decide
    exact hnone code hwf
  | _ => rfl

/-- A reserved code is refused, by whichever of the two reserved rows it decodes to (R61, R130). -/
theorem takeCode_of_opOf_none {code : OpCode} (h : opOf code = none) (s : State) :
    takeCode code s = .next (s.markRefused code) := by
  rw [takeCode_of_decode_ok (decode_of_opOf_none h s.control)]
  by_cases h0 : code = 0#4
  · rw [if_pos h0, h0]; exact exec_reservedZero s
  · rw [if_neg h0]; exact exec_reservedHigh code s

/-! ## The hex trace (R71) -/

/-- The digit that writes a code is read as that code. -/
theorem codeOfDigit_digitOfCode : ∀ code : OpCode, codeOfDigit (digitOfCode code) = some code := by decide

/-- A hex trace reads back, because each of its digits does. -/
theorem codesOfHex_hexOfCodes (codes : List OpCode) : codesOfHex (hexOfCodes codes) = some codes := by
  have hdigit : codeOfDigit ∘ digitOfCode = fun code => pure (id code) := funext codeOfDigit_digitOfCode
  rw [codesOfHex, hexOfCodes, List.mapM_map, hdigit, List.mapM_pure, List.map_id]
  rfl

/-! ## The fields of the schedule (log entry 3) -/

/-- The state with other values in the model's own fields for the schedule. -/
def State.withSchedule (s : State) (trace : List OpCode) (pos : Nat) : State := { s with trace := trace, pos := pos }

@[simp] theorem State.withSchedule_control (s : State) (trace : List OpCode) (pos : Nat) :
    (s.withSchedule trace pos).control = s.control := rfl

@[simp] theorem State.withSchedule_enabled (s : State) (trace : List OpCode) (pos : Nat) (op : Op) :
    (s.withSchedule trace pos).enabled op = s.enabled op := by cases op <;> rfl

/-- What an op's instruction writes does not depend on the schedule, and the schedule is not written. -/
theorem State.apply_withSchedule {i : Instr} {op : Op} (hi : i.op = some op) (s : State) (trace : List OpCode)
    (pos : Nat) : (s.withSchedule trace pos).apply i = (s.apply i).withSchedule trace pos := by
  cases i with
  | reservedZero | reservedHigh code => cases hi
  | _ => rfl

/-- An op that has its step takes the row its code decodes to, a row of that op, and leaves what that row writes. -/
theorem decode_of_take {op : Op} {s t : State} (h : take op s = .next t) :
    ∃ i, decode op.code s.control = .ok i ∧ i.op = some op ∧ t = s.apply i := by
  cases hdec : decode op.code s.control with
  | error o => rw [take, takeCode_of_decode_error hdec] at h; cases h
  | ok i =>
    rw [take, takeCode_of_decode_ok hdec] at h
    obtain ⟨hwf, hcode, -⟩ := encode_of_decode hdec
    exact ⟨i, rfl, by rw [op_eq_opOf_encode hwf, hcode, opOf_code], eq_apply_of_exec h⟩

/-- No op reads the schedule: with any other trace and count it has the same step, and leaves them (log entry 3). -/
theorem take_withSchedule {op : Op} {s t : State} (trace : List OpCode) (pos : Nat) (h : take op s = .next t) :
    take op (s.withSchedule trace pos) = .next (t.withSchedule trace pos) := by
  have henabled : (s.withSchedule trace pos).enabled op = true := by
    rw [State.withSchedule_enabled]
    exact enabled_of_take h
  obtain ⟨u, hu⟩ := take_runs_of_enabled henabled
  obtain ⟨i, hdec, hi, rfl⟩ := decode_of_take h
  obtain ⟨j, hdec', -, rfl⟩ := decode_of_take hu
  obtain rfl : i = j := by rw [State.withSchedule_control, hdec] at hdec'; exact Except.ok.inj hdec'
  rw [hu, State.apply_withSchedule hi]

/-! ## The machine's run of a trace (R69, R71) -/

/-- With an op's code in front of the trace, the step takes that op, the schedule moved on first. -/
theorem step_withSchedule (op : Op) (rest : List OpCode) (s : State) (pos : Nat) :
    step (s.withSchedule (op.code :: rest) pos) = take op (s.withSchedule rest (pos + 1)) :=
  step_of_trace_cons rfl

/-- The machine runs the ops whose codes stand in front of its trace, in order. -/
theorem run_withSchedule {ops : List Op} {s t : State} (rest : List OpCode) (pos : Nat) (h : runOps ops s = some t) :
    Host.Core.run Sys2Proof.core ops.length (s.withSchedule (ops.map Op.code ++ rest) pos) =
      .next (t.withSchedule rest (pos + ops.length)) := by
  induction ops generalizing s pos with
  | nil => cases h; rfl
  | cons op ops ih =>
    obtain ⟨u, hu, hrest⟩ := runOps_cons_eq_some h
    have hstep := (step_withSchedule op (ops.map Op.code ++ rest) s pos).trans (take_withSchedule _ _ hu)
    rw [List.length_cons, List.map_cons, List.cons_append, run_next _ hstep, ih _ hrest]
    congr 2
    omega

/-- A run in two parts: the second goes on from where the first ends. -/
theorem run_add {M : Host.Core} {m k : Nat} {s t : M.State} (h : M.run m s = .next t) :
    M.run (m + k) s = M.run k t := by
  induction m generalizing s with
  | zero => cases h; rw [Nat.zero_add]
  | succ m ih =>
    rw [Nat.succ_add]
    simp only [Host.Core.run] at h ⊢
    cases hstep : M.step s with
    | next u => rw [hstep] at h; exact ih h
    | fault f => rw [hstep] at h; cases h
    | refused r => rw [hstep] at h; cases h

/-! ## The line a trace is stuck at (R69) -/

/-- Each answer of a list that is read whole is read from one of its entries. -/
theorem exists_of_mem_mapM {α β : Type} {f : α → Option β} {l : List α} {bs : List β} (h : l.mapM f = some bs)
    {b : β} (hb : b ∈ bs) : ∃ a ∈ l, f a = some b := by
  induction l generalizing bs with
  | nil => cases h; cases hb
  | cons a l ih =>
    simp only [List.mapM_cons, Option.bind_eq_bind, Option.bind_eq_some_iff] at h
    obtain ⟨c, hc, cs, hcs, h⟩ := h
    cases h
    rcases List.mem_cons.mp hb with rfl | hb
    · exact ⟨a, List.mem_cons_self, hc⟩
    · obtain ⟨a', ha', e⟩ := ih hcs hb
      exact ⟨a', List.mem_cons_of_mem _ ha', e⟩

/-- A line that is read keeps the number it is read with. -/
theorem readLine_line {n : Nat} {raw : List Char} {l : TraceLine} (h : readLine n raw = some l) : l.line = n := by
  unfold readLine at h
  split at h
  · cases h; rfl
  · obtain ⟨k, -, rfl⟩ := Option.map_eq_some_iff.mp h
    rfl
  · cases h

/-- A numbered line of a text stands at its number, counted from 1. -/
theorem mem_numberedLines {text : String} {bare : List Char} {n : Nat} (h : (bare, n) ∈ numberedLines text) :
    1 ≤ n ∧ ∃ raw, (splitLines text.toList)[n - 1]? = some raw ∧ bareLine raw = bare := by
  obtain ⟨hn, hget⟩ := List.mk_mem_zipIdx_iff_le_and_getElem?_sub.mp h
  rw [List.getElem?_map] at hget
  exact ⟨hn, Option.map_eq_some_iff.mp hget⟩

/-- Each line of a trace that is read is read from the line of the text that stands at its number. -/
theorem mem_readTrace {text : String} {lines : List TraceLine} (h : readTrace text = some lines) {l : TraceLine}
    (hl : l ∈ lines) :
    1 ≤ l.line ∧ ∃ raw, (splitLines text.toList)[l.line - 1]? = some raw ∧ readLine l.line (bareLine raw) = some l := by
  obtain ⟨⟨bare, n⟩, hmem, hread⟩ := exists_of_mem_mapM h hl
  obtain rfl := readLine_line hread
  obtain ⟨hn, raw, hraw, rfl⟩ := mem_numberedLines (List.mem_filter.mp hmem).1
  exact ⟨hn, raw, hraw, hread⟩

/-- Running a trace ends exactly where taking its ops in order ends. -/
theorem runTracedOps_eq_ended {traced : List TracedOp} {s t : State} :
    runTracedOps traced s = .ended t ↔ runOps (traced.map TracedOp.op) s = some t := by
  induction traced generalizing s with
  | nil => simp [runTracedOps]
  | cons first rest ih =>
    rw [List.map_cons, runTracedOps, runOps]
    cases take first.op s with
    | next u => exact ih
    | fault f => simp
    | refused r => simp

/-- A trace that is stuck holds an op that is not enabled where the ops before it lead to. -/
theorem runTracedOps_eq_stuck {traced : List TracedOp} {s u : State} {line : Nat} {op : Op}
    (h : runTracedOps traced s = .stuck line op u) :
    ∃ before after, traced = before ++ ⟨line, op⟩ :: after ∧ runOps (before.map TracedOp.op) s = some u ∧
      u.enabled op = false := by
  induction traced generalizing s with
  | nil => cases h
  | cons first rest ih =>
    cases henabled : s.enabled first.op with
    | true =>
      obtain ⟨t, ht⟩ := take_runs_of_enabled henabled
      obtain ⟨before, after, rfl, hrun, hheld⟩ := ih ((runTracedOps_cons ht).symm.trans h)
      exact ⟨first :: before, after, rfl, (runOps_cons ht).trans hrun, hheld⟩
    | false =>
      have hno : NoStep (take first.op s) := fun t ht => by rw [enabled_of_take ht] at henabled; cases henabled
      rw [runTracedOps_stuck hno] at h
      cases h
      exact ⟨[], rest, rfl, rfl, henabled⟩

/-- Where the ops before it lead to a state in which an op is not enabled, the machine's run of their codes stops with
that op held, at its position. -/
theorem run_stops_held {before : List Op} {op : Op} {s u : State} (rest : List OpCode) (pos : Nat)
    (hrun : runOps before s = some u) (hheld : u.enabled op = false) :
    Host.Core.run Sys2Proof.core (before.length + 1) (s.withSchedule (before.map Op.code ++ op.code :: rest) pos) =
      .fault (.held op (pos + before.length + 1)) := by
  rw [run_add (run_withSchedule (op.code :: rest) pos hrun)]
  refine run_fault 0 ((step_withSchedule op rest u _).trans (take_held_of_not_enabled ?_))
  rw [State.withSchedule_enabled, hheld]

/-! ## The obligations -/

/-- Settles O1: each row's own round trip. -/
theorem decodeReadsBackEveryRow : Obligations.DecodeReadsBackEveryRow := by
  unfold Obligations.DecodeReadsBackEveryRow
  exact fun _ _ hwf hsel => decode_encode hwf hsel

/-- Settles O2: what the decoder answers is a selected row of the code, and such a row is read back from its code. -/
theorem decoderAnswersExactlyTheTable : Obligations.DecoderAnswersExactlyTheTable := by
  unfold Obligations.DecoderAnswersExactlyTheTable
  refine fun code c => ⟨fun i => ⟨encode_of_decode, ?_⟩, fun op => decode_eq_error⟩
  rintro ⟨hwf, rfl, hsel⟩
  exact decode_encode hwf hsel

/-- Settles O8: a hex trace reads back digit by digit, and is written digit by digit. -/
theorem hexTraceReadsBack : Obligations.HexTraceReadsBack := by
  unfold Obligations.HexTraceReadsBack
  exact ⟨codesOfHex_hexOfCodes, fun ops => List.map_map, by decide⟩

/-- Settles O50: by induction on the ops, with any schedule behind their codes. -/
theorem traceRunIsTheRunOfItsOps : Obligations.TraceRunIsTheRunOfItsOps := by
  unfold Obligations.TraceRunIsTheRunOfItsOps
  exact fun _ rest s _ h => run_withSchedule rest s.pos h

/-- Settles O60: lines keep their numbers as they are read; a trace's run follows its ops up to the one that is held,
and so does the machine's run of their codes. -/
theorem traceReportsTheLineItIsStuckAt : Obligations.TraceReportsTheLineItIsStuckAt := by
  unfold Obligations.TraceReportsTheLineItIsStuckAt
  refine ⟨fun text lines h l hl => mem_readTrace h hl, fun lines s => ⟨fun t => runTracedOps_eq_ended, ?_⟩⟩
  intro line op u h
  obtain ⟨before, after, hsplit, hrun, hheld⟩ := runTracedOps_eq_stuck h
  have hcodes : assembleTrace lines =
      (before.map TracedOp.op).map Op.code ++ op.code :: (after.map TracedOp.op).map Op.code := by
    simp [assembleTrace, expandTrace, hsplit]
  have hstop := run_stops_held ((after.map TracedOp.op).map Op.code) s.pos hrun hheld
  rw [← hcodes, List.length_map] at hstop
  exact ⟨before, after, hsplit, hrun, hheld, hstop⟩

/-- Settles O3: the codes of the ops are read back, what selects no op is reserved, and the rest is the tables' rows. -/
theorem opSelectorTable : Obligations.OpSelectorTable := by
  unfold Obligations.OpSelectorTable
  refine ⟨⟨opOf_code .rst, opOf_code .seq, opOf_code .tmr, opOf_code .edm, opOf_code .edc, opOf_code .svm,
      opOf_code .svc, opOf_eq_none.mpr (.inl rfl), fun code h => opOf_eq_none.mpr (.inr h)⟩,
    fun op code => ⟨opOf_eq_some, ?_⟩, by decide, by decide,
    fun s => ⟨s.enabled_rst, s.enabled_tmr, s.enabled_edm, s.enabled_edc, s.enabled_seq, .rfl, .rfl⟩⟩
  rintro rfl
  exact opOf_code op

/-- Settles O4: each code is the one of a row that the control state given with it selects. -/
theorem specCodesDecode : Obligations.SpecCodesDecode := by
  unfold Obligations.SpecCodesDecode
  exact ⟨decode_encode (i := .rst) rfl rfl, decode_encode (i := .seqDispatch) rfl rfl,
    decode_encode (i := .seqExit) rfl rfl, decode_encode (i := .seqTickPc) rfl rfl, decode_encode (i := .tmr) rfl rfl,
    decode_encode (i := .edm) rfl rfl, decode_encode (i := .svc) rfl rfl,
    decode_encode (i := .reservedHigh 0b1000#4) rfl rfl⟩

/-- Settles O5: each clause says that R62 selects one arm, which is then read back from the code the arms share. -/
theorem seqArmSelection : Obligations.SeqArmSelection := by
  unfold Obligations.SeqArmSelection
  intro c
  refine ⟨fun hp => decode_encode (i := .seqDispatch) rfl ?_, fun hp hm => decode_encode (i := .seqExit) rfl ?_,
    fun hp hm he => decode_encode (i := .seqTickCc) rfl ?_, fun hp hm he => decode_encode (i := .seqTickCs) rfl ?_,
    fun hp hm he => decode_encode (i := .seqTickPc) rfl ?_, fun hp hm he => decode_encode (i := .seqTickPs) rfl ?_,
    fun hp => decode_eq_error.mpr ⟨rfl, rfl, BitVec.eq_of_toNat_eq hp⟩,
    fun hp => decode_encode (i := .seqBadphase) rfl ?_⟩
  case refine_2 => simp [Instr.selectedBy, BitVec.toNat_eq, hp, mt BitVec.eq_of_toNat_eq hm]
  all_goals simp [Instr.selectedBy, BitVec.toNat_eq, *]

/-- Settles O7: a reserved row records its refusal, and a reserved code decodes to a reserved row. -/
theorem reservedCodesAreRefused : Obligations.ReservedCodesAreRefused := by
  unfold Obligations.ReservedCodesAreRefused
  exact fun code s => ⟨exec_reservedZero s, exec_reservedHigh code s,
    fun h => takeCode_of_opOf_none (opOf_eq_none.mpr h) s⟩

end Sys2Proof.Machine
end

section
/-!
PROOFS. Updates: an edge and its service in terms of the source they are of; what a run without a service keeps of the
pending latches; presses counted modulo 4 and modulo 8 (40_state_update.md, R80 to R88).
-/
namespace Sys2Proof

/-- The op that a rising edge of the source is (R83, R84). -/
def Source.edgeOp : Source → Op
  | .mode => .edm
  | .color => .edc

/-- The op that services the source (R85, R86). -/
def Source.updateOp : Source → Op
  | .mode => .svm
  | .color => .svc

end Sys2Proof

namespace Sys2Proof.Machine

/-! ## An edge and its service (R83 to R86) -/

@[simp] theorem State.pending_latchEdge (s : State) (src : Source) : (s.latchEdge src).pending src = true := by
  cases src <;> rfl

@[simp] theorem State.pending_service (s : State) (src : Source) : (s.service src).pending src = false := by
  cases src <;> rfl

@[simp] theorem State.pending_resetRegisters (s : State) (src : Source) : s.resetRegisters.pending src = false := by
  cases src <;> rfl

/-- An edge on a set latch merges with the pending one (R83, R84). -/
theorem State.latchEdge_of_pending {s : State} {src : Source} (h : s.pending src = true) : s.latchEdge src = s := by
  cases src with
  | mode =>
    have hpend : s.pendM = true := h
    rw [State.latchEdge, ← hpend]
  | color =>
    have hpend : s.pendC = true := h
    rw [State.latchEdge, ← hpend]

theorem State.service_latchEdge (s : State) (src : Source) : (s.latchEdge src).service src = s.service src := by
  cases src <;> rfl

theorem take_edgeOp (src : Source) (s : State) : take src.edgeOp s = .next (s.latchEdge src) := by
  cases src with
  | mode => exact exec_edm s
  | color => exact exec_edc s

theorem take_updateOp_eq_next {src : Source} {s t : State} :
    take src.updateOp s = .next t ↔ s.pending src = true ∧ t = s.service src := by
  cases src with
  | mode => exact take_svm_eq_next
  | color => exact take_svc_eq_next

/-- With its latch clear, a source's update has no step (R85, R86). -/
theorem noStep_updateOp {src : Source} {s : State} (h : s.pending src = false) : NoStep (take src.updateOp s) := by
  intro t ht
  rw [(take_updateOp_eq_next.mp ht).1] at h
  cases h

/-- A press that is serviced at once, whether or not an edge was pending before it. -/
theorem runOps_press (src : Source) (s : State) :
    runOps [src.edgeOp, src.updateOp] s = some (s.service src) := by
  rw [runOps_cons (take_edgeOp src s), runOps_cons (take_updateOp_eq_next.mpr ⟨s.pending_latchEdge src, rfl⟩),
    runOps_nil, s.service_latchEdge]

theorem runOps_two_updates {a b : Source} {s : State} (ha : s.pending a = true) (hb : (s.service a).pending b = true) :
    runOps [a.updateOp, b.updateOp] s = some ((s.service a).service b) := by
  rw [runOps_cons (take_updateOp_eq_next.mpr ⟨ha, rfl⟩), runOps_cons (take_updateOp_eq_next.mpr ⟨hb, rfl⟩), runOps_nil]

/-! ## The pending latches along a run (R87, R134) -/

/-- A property that each op of a list keeps is kept by a run of the list. -/
theorem runOps_keeps {P : State → Prop} {ops : List Op}
    (hkeep : ∀ op ∈ ops, ∀ {s t}, take op s = .next t → P s → P t) {s u : State} (h : runOps ops s = some u)
    (hs : P s) : P u := by
  induction ops generalizing s with
  | nil => cases h; exact hs
  | cons op ops ih =>
    obtain ⟨t, ht, h⟩ := runOps_cons_eq_some h
    exact ih (fun o ho => hkeep o (List.mem_cons_of_mem _ ho)) h (hkeep op List.mem_cons_self ht hs)

/-- Only the source's own two ops and RST write its latch (R24). -/
theorem pending_writers {src : Source} {op : Op} {s t : State} (h : take op s = .next t)
    (hne : t.pending src ≠ s.pending src) : op = src.edgeOp ∨ op = src.updateOp ∨ op = .rst := by
  obtain ⟨i, hi, hx⟩ := take_eq_next h
  obtain ⟨-, -, hpendM, hpendC⟩ := sharedRegisterWriters i s t hx
  cases src with
  | mode =>
    obtain rfl | rfl | rfl := hpendM hne <;> cases hi
    exacts [.inl rfl, .inr (.inl rfl), .inr (.inr rfl)]
  | color =>
    obtain rfl | rfl | rfl := hpendC hne <;> cases hi
    exacts [.inl rfl, .inr (.inl rfl), .inr (.inr rfl)]

/-- Without a service and without RST, what is pending stays pending. -/
theorem pending_stays_set {src : Source} {op : Op} {s t : State} (hupdate : op ≠ src.updateOp) (hrst : op ≠ .rst)
    (h : take op s = .next t) (hs : s.pending src = true) : t.pending src = true := by
  by_contra hne
  obtain rfl | rfl | rfl := pending_writers h (hs ▸ hne)
  · rw [take_edgeOp] at h
    cases h
    exact hne (s.pending_latchEdge src)
  · exact hupdate rfl
  · exact hrst rfl

/-- Without an edge, what is not pending does not become pending. -/
theorem pending_stays_clear {src : Source} {op : Op} {s t : State} (hedge : op ≠ src.edgeOp)
    (h : take op s = .next t) (hs : s.pending src = false) : t.pending src = false := by
  by_contra hne
  obtain rfl | rfl | rfl := pending_writers h (hs ▸ hne)
  · exact hedge rfl
  · exact noStep_updateOp hs t h
  · cases h
    exact hne (s.pending_resetRegisters src)

/-- After a run with an edge, and without a service or RST, the edge is pending. -/
theorem pending_of_edgeOp_mem {src : Source} {ops : List Op} (hedge : src.edgeOp ∈ ops)
    (hupdate : src.updateOp ∉ ops) (hrst : .rst ∉ ops) {s u : State} (h : runOps ops s = some u) :
    u.pending src = true := by
  induction ops generalizing s with
  | nil => cases hedge
  | cons op ops ih =>
    obtain ⟨t, ht, h⟩ := runOps_cons_eq_some h
    have hupdate' : src.updateOp ∉ ops := fun hmem => hupdate (List.mem_cons_of_mem _ hmem)
    have hrst' : .rst ∉ ops := fun hmem => hrst (List.mem_cons_of_mem _ hmem)
    obtain rfl | hedge := List.mem_cons.mp hedge
    · rw [take_edgeOp] at ht
      cases ht
      exact runOps_keeps (P := fun x => x.pending src = true)
        (fun _ ho => pending_stays_set (fun e => hupdate' (e ▸ ho)) (fun e => hrst' (e ▸ ho))) h
        (s.pending_latchEdge src)
    · exact ih hedge hupdate' hrst' h

/-- After a service, no update has a step until there is a new edge. -/
theorem noStep_updateOp_after_service {src : Source} {more : List Op} (hedge : src.edgeOp ∉ more) {s v : State}
    (h : runOps more (s.service src) = some v) : NoStep (take src.updateOp v) :=
  noStep_updateOp (runOps_keeps (P := fun x => x.pending src = false)
    (fun _ ho => pending_stays_clear fun e => hedge (e ▸ ho)) h (s.pending_service src))

/-- Only SVM and RST write MODE (R22). -/
theorem mode_of_take {op : Op} {s t : State} (hsvm : op ≠ .svm) (hrst : op ≠ .rst) (h : take op s = .next t) :
    t.mode = s.mode := by
  by_contra hne
  obtain ⟨i, hi, hx⟩ := take_eq_next h
  obtain ⟨hmode, -⟩ := sharedRegisterWriters i s t hx
  obtain rfl | rfl := hmode hne <;> cases hi
  · exact hsvm rfl
  · exact hrst rfl

theorem mode_of_runOps {ops : List Op} (hsvm : .svm ∉ ops) (hrst : .rst ∉ ops) {s u : State}
    (h : runOps ops s = some u) : u.mode = s.mode :=
  runOps_keeps (P := fun x => x.mode = s.mode)
    (fun _ ho _ _ ht hs => (mode_of_take (fun e => hsvm (e ▸ ho)) (fun e => hrst (e ▸ ho)) ht).trans hs) h rfl

/-! ## Counting presses (R80, R81) -/

theorem add_one_iterate {w : Nat} (x : BitVec w) (n : Nat) :
    (· + 1#w)^[n] x = BitVec.ofNat w ((x.toNat + n) % 2 ^ w) := by
  induction n with
  | zero => simp
  | succ n ih =>
    rw [Function.iterate_succ_apply', ih]
    exact BitVec.eq_of_toNat_eq (by simp [Nat.add_assoc])

/-- ADV_MODE applied `n` times (R80). -/
theorem advMode_iterate (m : BitVec 2) (n : Nat) : advMode^[n] m = BitVec.ofNat 2 ((m.toNat + n) % 4) :=
  add_one_iterate m n

/-- ADV_BTN applied `n` times (R81). -/
theorem advBtn_iterate (c : BitVec 3) (n : Nat) : advBtn^[n] c = BitVec.ofNat 3 ((c.toNat + n) % 8) :=
  add_one_iterate c n

theorem advMode_iterate_four : ∀ m : BitVec 2, advMode^[4] m = m := by decide

/-- Services in a row, from the first one on: the latch is clear, and nothing but MODE and it has changed. -/
theorem State.service_mode_iterate (s : State) (n : Nat) :
    (State.service · .mode)^[n + 1] s = { s with mode := advMode^[n + 1] s.mode, pendM := false } := by
  induction n with
  | zero => rfl
  | succ n ih =>
    rw [Function.iterate_succ_apply', ih, Function.iterate_succ_apply' advMode (n + 1)]
    rfl

theorem State.service_color_iterate (s : State) (n : Nat) :
    (State.service · .color)^[n + 1] s = { s with color := advBtn^[n + 1] s.color, pendC := false } := by
  induction n with
  | zero => rfl
  | succ n ih =>
    rw [Function.iterate_succ_apply', ih, Function.iterate_succ_apply' advBtn (n + 1)]
    rfl

/-- `n` presses, each serviced at once, are `n` services in a row. -/
theorem runOps_presses (src : Source) (n : Nat) (s : State) :
    runOps (repeatOps n [src.edgeOp, src.updateOp]) s = some ((State.service · src)^[n] s) := by
  induction n with
  | zero => rfl
  | succ n ih => rw [repeatOps_succ', runOps_append ih, runOps_press, Function.iterate_succ_apply']

/-! ## The obligations -/

/-- Settles O15: presses serviced at once are services in a row, which advance the register as often. -/
theorem pressesAdvanceModuloFourAndEight : Obligations.PressesAdvanceModuloFourAndEight := by
  unfold Obligations.PressesAdvanceModuloFourAndEight
  refine ⟨fun m => ⟨BitVec.toNat_add m 1#2, advMode_iterate_four m⟩, fun c => BitVec.toNat_add c 1#3,
    fun n s => ⟨?_, ?_, ?_⟩⟩
  · rw [← advMode_iterate, ← s.service_mode_iterate]
    exact runOps_presses .mode (n + 1) s
  · rw [← advBtn_iterate, ← s.service_color_iterate]
    exact runOps_presses .color (n + 1) s
  · have hpresses := runOps_presses .mode 4 s
    rw [s.service_mode_iterate, advMode_iterate_four] at hpresses
    exact hpresses

/-- Settles O16: the edge is pending at the end of the run, and no longer from its service on. -/
theorem pendingEdgesMerge : Obligations.PendingEdgesMerge := by
  unfold Obligations.PendingEdgesMerge
  refine fun ops more s u v => ⟨fun hedm hsvm hrst hrun => ?_, fun hedc hsvc hrst hrun => ?_⟩
  · have hpend : u.pending .mode = true := pending_of_edgeOp_mem hedm hsvm hrst hrun
    exact ⟨u.service .mode, take_updateOp_eq_next.mpr ⟨hpend, rfl⟩, congrArg advMode (mode_of_runOps hsvm hrst hrun),
      rfl, fun hedm' hmore => noStep_updateOp_after_service (src := .mode) hedm' hmore⟩
  · have hpend : u.pending .color = true := pending_of_edgeOp_mem hedc hsvc hrst hrun
    exact ⟨u.service .color, take_updateOp_eq_next.mpr ⟨hpend, rfl⟩, rfl, rfl,
      fun hedc' hmore => noStep_updateOp_after_service (src := .color) hedc' hmore⟩

/-- Settles O11: an edge on a set latch changes nothing, and one service clears the latch. -/
theorem modeEdgeSetsItsLatch : Obligations.ModeEdgeSetsItsLatch := by
  unfold Obligations.ModeEdgeSetsItsLatch
  exact fun s => ⟨take_edm s, exec_edm s, fun hpend =>
    ⟨(exec_edm s).trans (congrArg _ (State.latchEdge_of_pending hpend)), s.service .mode, runOps_press .mode s,
      noStep_updateOp (s.pending_service .mode)⟩⟩

/-- Settles O12: an edge on a set latch changes nothing, and one service clears the latch. -/
theorem colorEdgeSetsItsLatch : Obligations.ColorEdgeSetsItsLatch := by
  unfold Obligations.ColorEdgeSetsItsLatch
  exact fun s => ⟨take_edc s, exec_edc s, fun hpend =>
    ⟨(exec_edc s).trans (congrArg _ (State.latchEdge_of_pending hpend)), s.service .color, runOps_press .color s,
      noStep_updateOp (s.pending_service .color)⟩⟩

/-- Settles O13: SVM's step is the service of its source, whose advance is written out. -/
theorem modeServiceAdvancesMode : Obligations.ModeServiceAdvancesMode := by
  unfold Obligations.ModeServiceAdvancesMode
  intro s
  rw [← advMode_iterate s.mode 1]
  exact ⟨take_svm s, fun hpend => exec_svm_eq_next.mpr ⟨hpend, rfl⟩, noStep_updateOp (src := .mode)⟩

/-- Settles O14: SVC's step is the service of its source, whose advance is written out. -/
theorem colorServiceAdvancesColor : Obligations.ColorServiceAdvancesColor := by
  unfold Obligations.ColorServiceAdvancesColor
  intro s
  rw [← advBtn_iterate s.color 1]
  exact ⟨take_svc s, fun hpend => exec_svc_eq_next.mpr ⟨hpend, rfl⟩, noStep_updateOp (src := .color)⟩

/-- Settles O17: neither service touches the other's latch, so both orders run, and what they write is disjoint. -/
theorem updatesCommute : Obligations.UpdatesCommute := by
  unfold Obligations.UpdatesCommute
  intro s hpendM hpendC
  have hmodeFirst : runOps [.svm, .svc] s = some ((s.service .mode).service .color) :=
    runOps_two_updates (a := .mode) (b := .color) hpendM hpendC
  have hcolorFirst : runOps [.svc, .svm] s = some ((s.service .color).service .mode) :=
    runOps_two_updates (a := .color) (b := .mode) hpendC hpendM
  exact ⟨hmodeFirst.trans hcolorFirst.symm, hmodeFirst⟩

end Sys2Proof.Machine
end

section
/-!
PROOFS. Duty: what SCALE, DUTYSTEP and RETURNED compute; where in the triangle wave a pair on the ramp stands, and that
each step moves it on by one; ticks of a pulse mode with a TMR after each (41_duty_generator.md, R90 to R95).
-/
namespace Sys2Proof.Machine

/-! ## SCALE (R90) -/

theorem scale_false {w : Nat} (h : BitVec w) : scale false h = h := rfl

theorem scale_true_toNat {w : Nat} (h : BitVec w) : (scale true h).toNat = h.toNat / 4 := by
  rw [scale, if_pos rfl, BitVec.toNat_ushiftRight, Nat.shiftRight_eq_div_pow]

/-- SCALE gives 0 exactly for a maximum of 0, or a maximum that the division by 4 rounds to 0 (R90, R95). -/
theorem scale_toNat_eq_zero {w : Nat} {h : BitVec w} {div4 : Bool} :
    (scale div4 h).toNat = 0 ↔ h.toNat = 0 ∨ (div4 = true ∧ h.toNat ≤ 3) := by
  cases div4 with
  | false => simp [scale_false]
  | true =>
    rw [scale_true_toNat]
    simp only [true_and]
    omega

/-! ## DUTYSTEP and RETURNED of any pair (R91, R92) -/

theorem toNat_eq_zero_iff {w : Nat} {x : BitVec w} : x.toNat = 0 ↔ x = 0#w := by
  rw [← BitVec.toNat_inj, BitVec.toNat_zero]

/-- A register of no bits holds 0 only, so a maximum other than 0 has room for a 1. -/
theorem one_toNat_of_ne_zero {w : Nat} {m : BitVec w} (hm : m ≠ 0#w) : (1#w).toNat = 1 := by
  have hw : w ≠ 0 := by
    rintro rfl
    exact hm BitVec.of_length_zero
  exact BitVec.toNat_one (Nat.pos_of_ne_zero hw)

/-- Rising, the duty is one more modulo 2^W, and turns where that is the maximum (R91). -/
theorem dutyStep_rising {w : Nat} (d : BitVec w) {m : BitVec w} (hm : m ≠ 0#w) :
    (dutyStep d true m).1.toNat = (d.toNat + 1) % 2 ^ w ∧
      ((dutyStep d true m).2 = false ↔ (dutyStep d true m).1.toNat = m.toNat) := by
  constructor
  · rw [dutyStep, dutyNext, if_neg hm, if_pos rfl, BitVec.toNat_add, one_toNat_of_ne_zero hm]
  · simp [dutyStep, hm, BitVec.toNat_inj]

/-- Falling, the duty is one less modulo 2^W, and turns where that is 0 (R91). -/
theorem dutyStep_falling {w : Nat} (d : BitVec w) {m : BitVec w} (hm : m ≠ 0#w) :
    (dutyStep d false m).1.toNat = (d.toNat + (2 ^ w - 1)) % 2 ^ w ∧
      ((dutyStep d false m).2 = true ↔ (dutyStep d false m).1.toNat = 0) := by
  constructor
  · rw [dutyStep, dutyNext, if_neg hm, if_neg Bool.false_ne_true, BitVec.toNat_sub, one_toNat_of_ne_zero hm,
      Nat.add_comm]
  · simp [dutyStep, hm, BitVec.toNat_eq]

theorem returned_iff {w : Nat} {d m : BitVec w} {t : Bool} :
    returned d t m = true ↔ 1 ≤ m.toNat ∧ t = false ∧ d.toNat = 1 := by
  simp [returned, and_assoc]

/-! ## The place of a pair in the triangle wave (R93, R94) -/

theorem rampPosition_rising {w : Nat} (d m : BitVec w) : rampPosition d true m = d.toNat := rfl

theorem rampPosition_falling {w : Nat} (d m : BitVec w) : rampPosition d false m = 2 * m.toNat - d.toNat := rfl

section
variable {w : Nat} {d m : BitVec w} {t : Bool} (h : OnRamp d t m)
include h

theorem OnRamp.one_le_max : 1 ≤ m.toNat := by
  rcases h with ⟨_, h⟩ | ⟨_, h1, h2⟩ <;> omega

theorem OnRamp.rising_bound (ht : t = true) : d.toNat + 1 ≤ m.toNat := by
  rcases h with ⟨_, h⟩ | ⟨rfl, _⟩
  · exact h
  · cases ht

theorem OnRamp.falling_bounds (ht : t = false) : 1 ≤ d.toNat ∧ d.toNat ≤ m.toNat := by
  rcases h with ⟨rfl, _⟩ | ⟨_, h⟩
  · cases ht
  · exact h

theorem OnRamp.rampPosition_lt : rampPosition d t m < 2 * m.toNat := by
  rcases h with ⟨rfl, h⟩ | ⟨rfl, h1, h2⟩
  · rw [rampPosition_rising]; omega
  · rw [rampPosition_falling]; omega

/-- The first half of the period is the rising one. -/
theorem OnRamp.rising_iff : t = true ↔ rampPosition d t m < m.toNat := by
  rcases h with ⟨rfl, h⟩ | ⟨rfl, h1, h2⟩
  · simp only [rampPosition_rising, true_iff]; omega
  · simp only [rampPosition_falling, Bool.false_eq_true, false_iff]; omega

/-- The duty is the wave's value at the pair's place. -/
theorem OnRamp.toNat_eq_triangle : d.toNat = triangle m.toNat (rampPosition d t m) := by
  rw [triangle, Nat.mod_eq_of_lt h.rampPosition_lt]
  rcases h with ⟨rfl, h⟩ | ⟨rfl, h1, h2⟩
  · rw [rampPosition_rising, if_pos (by omega)]
  · rw [rampPosition_falling]
    split <;> omega

theorem OnRamp.rampPosition_eq_zero : rampPosition d t m = 0 ↔ d.toNat = 0 ∧ t = true := by
  rcases h with ⟨rfl, h⟩ | ⟨rfl, h1, h2⟩
  · simp [rampPosition_rising]
  · simp only [rampPosition_falling, Bool.false_eq_true, and_false, iff_false]; omega

/-- On the ramp, RETURNED is the step down that writes 0 and turns the direction (R92). -/
theorem OnRamp.returned_iff_step_to_zero :
    returned d t m = true ↔ t = false ∧ (dutyStep d t m).1.toNat = 0 ∧ (dutyStep d t m).2 = true := by
  have hm := h.one_le_max
  rw [returned_iff]
  rcases h with ⟨rfl, h⟩ | ⟨rfl, h1, h2⟩
  · simp
  · obtain ⟨hduty, hturn⟩ := dutyStep_down h1 h2
    simp only [hduty, hturn, true_and]
    omega

/-- RETURNED is the step to the first place of the period: no step up ends there (R92, R94). -/
theorem OnRamp.returned_iff_rampPosition_step :
    returned d t m = true ↔ rampPosition (dutyStep d t m).1 (dutyStep d t m).2 m = 0 := by
  rw [h.returned_iff_step_to_zero, h.step.rampPosition_eq_zero, and_iff_right_of_imp]
  rintro ⟨hzero, -⟩
  rcases h with ⟨rfl, h⟩ | ⟨rfl, -⟩
  · rw [(dutyStep_up h).1] at hzero; cases hzero
  · rfl

/-- A step moves the pair to the next place of the period (R94). -/
theorem OnRamp.rampPosition_step :
    rampPosition (dutyStep d t m).1 (dutyStep d t m).2 m = (rampPosition d t m + 1) % (2 * m.toNat) := by
  rcases h with ⟨rfl, h⟩ | ⟨rfl, h1, h2⟩
  · obtain ⟨hduty, hturn⟩ := dutyStep_up h
    rw [rampPosition_rising, Nat.mod_eq_of_lt (by omega)]
    cases hdir : (dutyStep d true m).2 with
    | true => rw [rampPosition_rising, hduty]
    | false =>
      rw [hdir] at hturn
      simp only [Bool.false_eq_true, false_iff] at hturn
      rw [rampPosition_falling, hduty]; omega
  · obtain ⟨hduty, hturn⟩ := dutyStep_down h1 h2
    rw [rampPosition_falling]
    cases hdir : (dutyStep d false m).2 with
    | true =>
      have hd : d.toNat = 1 := hturn.mp hdir
      have hlast : 2 * m.toNat - d.toNat + 1 = 2 * m.toNat := by omega
      rw [rampPosition_rising, hduty, hlast, Nat.mod_self, hd]
    | false =>
      rw [hdir] at hturn
      simp only [Bool.false_eq_true, false_iff] at hturn
      rw [rampPosition_falling, hduty, Nat.mod_eq_of_lt (by omega)]; omega

end

/-! ## The ramp from its entry state (R93, R94) -/

section
variable {w : Nat} {m : BitVec w} (hm : 1 ≤ m.toNat)
include hm

theorem onRamp_rampAfter (n : Nat) : OnRamp (rampAfter m n).1 (rampAfter m n).2 m := by
  induction n with
  | zero => exact .inl ⟨rfl, by simpa [rampAfter] using hm⟩
  | succ n ih => exact ih.step

theorem rampPosition_rampAfter (n : Nat) :
    rampPosition (rampAfter m n).1 (rampAfter m n).2 m = n % (2 * m.toNat) := by
  induction n with
  | zero => simp [rampAfter, rampPosition_rising]
  | succ n ih => rw [rampAfter, (onRamp_rampAfter hm n).rampPosition_step, ih, Nat.mod_add_mod]

/-- The closed form of the duty (R94): the wave has period 2m, so the pair's place tells it. -/
theorem rampAfter_toNat (n : Nat) : (rampAfter m n).1.toNat = triangle m.toNat n := by
  rw [(onRamp_rampAfter hm n).toNat_eq_triangle, rampPosition_rampAfter hm, triangle, Nat.mod_mod, triangle]

theorem rampAfter_rising_iff (n : Nat) : (rampAfter m n).2 = true ↔ n % (2 * m.toNat) < m.toNat := by
  rw [(onRamp_rampAfter hm n).rising_iff, rampPosition_rampAfter hm]

/-- The step on which RETURNED holds ends a period (R94). -/
theorem returned_rampAfter_iff (n : Nat) :
    returned (rampAfter m n).1 (rampAfter m n).2 m = true ↔ (n + 1) % (2 * m.toNat) = 0 := by
  rw [(onRamp_rampAfter hm n).returned_iff_rampPosition_step, ← rampPosition_rampAfter hm, rampAfter]

end

/-! ## A tick of a pulse mode and the TMR after it (R113, R114, R118) -/

/-- A pulse handler at its guard, its mode unchanged: the next SEQ is a tick of PulseCycling or of PulseSingle (R62). -/
structure State.PulseReady (s : State) : Prop where
  phase : s.phase = 1#2
  mode  : s.mode = s.entry
  pulse : s.entry = 2#2 ∨ s.entry = 3#2

/-- COLOR after a tick of a pulse mode: only PulseCycling advances it (R113, R114). -/
def State.colorAfterTick (s : State) : BitVec 3 := if s.entry = 2#2 then s.colorAfterPulse else s.color

/-- The state with a pair in DUTY and TO_ADD, and the channels of a colour driven with its duty. -/
def State.withPulse (s : State) (pair : BitVec s.params.dutyWidth × Bool) (c : BitVec 3) : State :=
  { s with duty := pair.1, toAdd := pair.2, color := c, ch := drive c pair.1 }

/-- What a tick of a pulse mode and the TMR after it write: PHASE is back at GUARD. -/
def State.pulse (s : State) : State := s.withPulse s.rampStep s.colorAfterTick

theorem State.PulseReady.withPulse {s : State} (h : s.PulseReady) (pair : BitVec s.params.dutyWidth × Bool)
    (c : BitVec 3) : (s.withPulse pair c).PulseReady := ⟨h.phase, h.mode, h.pulse⟩

/-- The tick leaves the handler in WAIT, with what the pulse writes (R113, R114). -/
theorem State.PulseReady.take_seq {s : State} (h : s.PulseReady) :
    take .seq s = .next { s.pulse with phase := 2#2 } := by
  obtain ⟨hphase, hmode, hpulse⟩ := h
  rcases hpulse with hentry | hentry
  · have hsel : Instr.seqTickPc.selectedBy s.control = true := by
      simp [Instr.selectedBy, State.control, hphase, hmode, hentry]
    rw [take_seq_of_selectedBy rfl hsel]
    simp [State.apply, State.pulse, State.withPulse, State.colorAfterTick, hentry]
  · have hsel : Instr.seqTickPs.selectedBy s.control = true := by
      simp [Instr.selectedBy, State.control, hphase, hmode, hentry]
    rw [take_seq_of_selectedBy rfl hsel]
    simp [State.apply, State.pulse, State.withPulse, State.colorAfterTick, hentry]

theorem take_tmr_of_wait {s : State} (h : s.phase = 2#2) : take .tmr s = .next { s with phase := 1#2 } := by
  rw [take_tmr, exec_tmr, State.strobe]
  simp [h]

theorem State.PulseReady.runOps_pulse {s : State} (h : s.PulseReady) : runOps [.seq, .tmr] s = some s.pulse := by
  have hphase : s.pulse.phase = 1#2 := h.phase
  rw [runOps_cons h.take_seq, runOps_cons (take_tmr_of_wait rfl), runOps_nil, ← hphase]

/-- Ticks with a TMR after each are pulses in a row. -/
theorem State.PulseReady.runOps_pulses {s : State} (h : s.PulseReady) (n : Nat) :
    runOps (repeatOps n [.seq, .tmr]) s = some (State.pulse^[n] s) := by
  induction n generalizing s with
  | zero => rfl
  | succ n ih =>
    have hnext : s.pulse.PulseReady := h.withPulse _ _
    rw [repeatOps_succ, runOps_append h.runOps_pulse, ih hnext, Function.iterate_succ_apply]

/-- With MAXL = 0 a pulse holds the pair, and COLOR does not advance (R92, R95). -/
theorem State.pulse_of_maxl_zero {s : State} (hm : s.maxl.toNat = 0) :
    s.pulse = s.withPulse (s.duty, s.toAdd) s.color := by
  have hstep : s.rampStep = (s.duty, s.toAdd) := by
    rw [State.rampStep, toNat_eq_zero_iff.mp hm, dutyStep_zero]
  have hreturns : ¬s.rampReturns = true := by
    rw [State.rampReturns, returned_iff, hm]
    omega
  rw [State.pulse, hstep, State.colorAfterTick, State.colorAfterPulse, if_neg hreturns, ite_self]

theorem State.pulse_iterate_of_maxl_zero {s : State} (hm : s.maxl.toNat = 0) (n : Nat) :
    State.pulse^[n + 1] s = s.withPulse (s.duty, s.toAdd) s.color := by
  induction n with
  | zero => exact State.pulse_of_maxl_zero hm
  | succ n ih =>
    rw [Function.iterate_succ_apply', ih]
    exact State.pulse_of_maxl_zero (s := s.withPulse (s.duty, s.toAdd) s.color) hm

/-- In PulseSingle a pulse is a step of the ramp, and COLOR stays (R113). -/
theorem State.pulse_of_pulseSingle {s : State} (hentry : s.entry = 3#2) :
    s.pulse = s.withPulse s.rampStep s.color := by
  rw [State.pulse, State.colorAfterTick, if_neg (by simp [hentry])]

/-- Pulses of PulseSingle from the entry state walk the ramp (R94, R113). -/
theorem State.pulse_iterate_of_pulseSingle {s : State} (hentry : s.entry = 3#2)
    (hpair : (s.duty, s.toAdd) = rampAfter s.maxl 0) (n : Nat) :
    State.pulse^[n + 1] s = s.withPulse (rampAfter s.maxl (n + 1)) s.color := by
  induction n with
  | zero =>
    have hstep : s.rampStep = rampAfter s.maxl 1 := by rw [rampAfter, ← hpair, State.rampStep]
    rw [Function.iterate_one, State.pulse_of_pulseSingle hentry, hstep]
  | succ n ih =>
    rw [Function.iterate_succ_apply', ih]
    exact State.pulse_of_pulseSingle (s := s.withPulse _ _) hentry

/-! ## The obligations -/

/-- Settles O27: the definition, and on the ramp the step down from 1, which alone writes 0. -/
theorem returnedIsTheStepToZero : Obligations.ReturnedIsTheStepToZero := by
  unfold Obligations.ReturnedIsTheStepToZero
  exact fun w d m t => ⟨returned_iff, fun _ hramp => hramp.returned_iff_step_to_zero⟩

/-- Settles O28: the ramp is closed under its step, which from on the ramp is one up or one down. -/
theorem triangleInvariant : Obligations.TriangleInvariant := by
  unfold Obligations.TriangleInvariant
  intro w m n hm
  have hramp := onRamp_rampAfter hm n
  refine ⟨hramp, hramp.le, fun hrising => ?_, fun hfalling => ?_⟩
  · rw [rampAfter, hrising]
    exact (dutyStep_up (hramp.rising_bound hrising)).1
  · obtain ⟨h1, h2⟩ := hramp.falling_bounds hfalling
    rw [rampAfter, hfalling, (dutyStep_down h1 h2).1]
    exact Nat.sub_add_cancel h1

/-- Settles O29: after n steps the pair stands at place n mod 2m of the wave. -/
theorem waveformClosedForm : Obligations.WaveformClosedForm := by
  unfold Obligations.WaveformClosedForm
  exact fun w m n hm => ⟨rampAfter_toNat hm n, rampAfter_rising_iff hm n, returned_rampAfter_iff hm n⟩

/-- Settles O30: the first pulse drives every channel with 0, and each one after it writes the same. -/
theorem zeroMaximumHoldsTheRamp : Obligations.ZeroMaximumHoldsTheRamp := by
  unfold Obligations.ZeroMaximumHoldsTheRamp
  refine ⟨fun w h div4 => scale_toNat_eq_zero, fun n s hphase hmode hpulse hm hduty _ => ?_⟩
  have hready : s.PulseReady := ⟨hphase, hmode, hpulse⟩
  have hch : drive s.color s.duty = zeroAll s.params.dutyWidth := by
    rw [toNat_eq_zero_iff.mp hduty, drive_zero]
  rw [hready.runOps_pulses, State.pulse_iterate_of_maxl_zero hm, State.withPulse, hch, zeroAll]

/-- Settles O54: the pulses walk the ramp, whose closed form is the triangle wave. -/
theorem pulseSingleDrivesTheTriangle : Obligations.PulseSingleDrivesTheTriangle := by
  unfold Obligations.PulseSingleDrivesTheTriangle
  intro n s hphase hmode hentry hduty hrising hm
  have hready : s.PulseReady := ⟨hphase, hmode.trans hentry.symm, .inr hentry⟩
  have hpair : (s.duty, s.toAdd) = rampAfter s.maxl 0 := by
    rw [rampAfter, hrising, toNat_eq_zero_iff.mp hduty]
  have hdir : (rampAfter s.maxl (n + 1)).2 = decide ((n + 1) % (2 * s.maxl.toNat) < s.maxl.toNat) :=
    Bool.eq_iff_iff.mpr ((rampAfter_rising_iff hm (n + 1)).trans decide_eq_true_iff.symm)
  refine ⟨(rampAfter s.maxl (n + 1)).1, rampAfter_toNat hm (n + 1), ?_⟩
  rw [hready.runOps_pulses, State.pulse_iterate_of_pulseSingle hentry hpair, State.withPulse, hdir]

/-- Settles O25: dividing by 4 is the shift by 2, and DISPATCH writes SCALE(MAX_HW) to MAXL. -/
theorem scaleIsLatchedAtDispatch : Obligations.ScaleIsLatchedAtDispatch := by
  unfold Obligations.ScaleIsLatchedAtDispatch
  refine ⟨fun w h => ⟨scale_false h, scale_true_toNat h, fun hle => scale_toNat_eq_zero.mpr (.inr ⟨rfl, hle⟩)⟩,
    fun s hphase => ?_⟩
  have hsel : Instr.seqDispatch.selectedBy s.control = true := by simp [Instr.selectedBy, State.control, hphase]
  exact ⟨s.apply .seqDispatch, take_seq_of_selectedBy rfl hsel, rfl, rfl⟩

/-- Settles O26: the two arms write the pair of DUTYSTEP, which holds, rises or falls. -/
theorem dutyStepRule : Obligations.DutyStepRule := by
  unfold Obligations.DutyStepRule
  refine ⟨?_, fun w d m => ⟨fun t hm => ?_, fun hm => ?_⟩⟩
  · rintro s t (h | h) <;> obtain rfl := eq_apply_of_exec h <;> exact ⟨rfl, rfl⟩
  · rw [toNat_eq_zero_iff.mp hm, dutyStep_zero]
  · have hne : m ≠ 0#w := mt toNat_eq_zero_iff.mpr hm
    obtain ⟨hup, hturnUp⟩ := dutyStep_rising d hne
    obtain ⟨hdown, hturnDown⟩ := dutyStep_falling d hne
    exact ⟨hup, hup ▸ hturnUp, hdown, hdown ▸ hturnDown⟩

end Sys2Proof.Machine
end

section
/-!
PROOFS. Driver: a tick of each kind of mode drives COLOR's lanes with the mode's value, and so what every channel holds
after it (42_channel_driver.md, R100 to R103).
-/
namespace Sys2Proof.Machine

/-! ## The drive of a tick (R103) -/

/-- A tick of a constant mode drives MAXL through the COLOR it leaves, which for ConstantCycling is the advanced one. -/
theorem constant_tick_ch {i : Instr} {s t : State} (hi : i = .seqTickCc ∨ i = .seqTickCs) (h : exec i s = .next t) :
    t.ch = drive t.color t.maxl := by
  obtain rfl := eq_apply_of_exec h
  rcases hi with rfl | rfl
  · rfl
  · rfl

/-- A tick of a pulse mode drives the duty it leaves through the COLOR it leaves, both after their step. -/
theorem pulse_tick_ch {i : Instr} {s t : State} (hi : i = .seqTickPc ∨ i = .seqTickPs) (h : exec i s = .next t) :
    t.ch = drive t.color t.duty := by
  obtain rfl := eq_apply_of_exec h
  rcases hi with rfl | rfl
  · rfl
  · rfl

/-! ## The obligations -/

/-- Settles O32: every tick drives all lanes, so no channel keeps what it held before. -/
theorem noStaleChannel : Obligations.NoStaleChannel := by
  unfold Obligations.NoStaleChannel
  intro i s t k h
  refine ⟨fun hconstant => ?_, fun hpulse => ?_⟩
  · rw [constant_tick_ch hconstant h, drive_get]
  · rw [pulse_tick_ch hpulse h, drive_get]

/-- Settles O31: the lanes of DRIVE and of ZERO_ALL one by one, and a drive of 0 is dark under every mask. -/
theorem driveWritesEveryLane : Obligations.DriveWritesEveryLane := by
  unfold Obligations.DriveWritesEveryLane
  exact fun w c v i => ⟨drive_get c v i, zeroAll_get w i, (drive_zero 0#3).symm⟩

end Sys2Proof.Machine
end

section
/-!
PROOFS. Sequencer: the one arm of SEQ that has a step, what each arm writes, TMR, the two ways in which a changed MODE or
COLOR is seen, and the dwell of ConstantCycling over any run of polls and strobes (43_mode_sequencer.md, R110 to R120).
-/
namespace Sys2Proof.Machine

/-! ## The arm SEQ takes (R62, R110) -/

/-- An arm of SEQ that has a step is the meaning of the code that the arms share. -/
theorem takeCode_seq_of_exec {i : Instr} {s t : State} (hi : i.op = some .seq) (h : exec i s = .next t) :
    takeCode 0b0010#4 s = exec i s :=
  takeCode_of_decode_ok (take_seq_of_exec hi h).1

/-- At most one arm of SEQ has a step: the decoder reads it from the code they share. -/
theorem seq_arm_unique {i j : Instr} {s t u : State} (hi : i.op = some .seq) (hj : j.op = some .seq)
    (ht : exec i s = .next t) (hu : exec j s = .next u) : j = i :=
  Except.ok.inj ((take_seq_of_exec hj hu).1.symm.trans (take_seq_of_exec hi ht).1)

/-- In WAIT, SEQ has no step (R110). -/
theorem noStep_take_seq {s : State} (h : s.phase = 2#2) : NoStep (take .seq s) := by
  intro t ht
  rw [take_seq_held h] at ht
  cases ht

/-! ## EXIT (R112) -/

/-- The pulse modes by number (R63). -/
theorem isPulse_iff : ∀ {m : BitVec 2}, Mode.isPulse m = true ↔ m = 2#2 ∨ m = 3#2 := by decide

/-- EXIT from a pulse mode zeroes the channels. -/
theorem exec_seqExit_pulse {s : State} (hphase : s.phase = 1#2) (hmode : s.mode ≠ s.entry)
    (hentry : s.entry = 2#2 ∨ s.entry = 3#2) :
    exec .seqExit s = .next { s with ch := zeroAll s.params.dutyWidth, phase := 0#2 } :=
  exec_seqExit_eq_next.mpr ⟨⟨hphase, hmode⟩, by rw [if_pos (isPulse_iff.mpr hentry)]⟩

/-- EXIT from a constant mode keeps the channels. -/
theorem exec_seqExit_constant {s : State} (hphase : s.phase = 1#2) (hmode : s.mode ≠ s.entry)
    (hentry : ¬(s.entry = 2#2 ∨ s.entry = 3#2)) :
    exec .seqExit s = .next { s with phase := 0#2 } :=
  exec_seqExit_eq_next.mpr ⟨⟨hphase, hmode⟩, by rw [if_neg (mt isPulse_iff.mp hentry)]⟩

/-! ## Ticks and polls (R113 to R116) -/

/-- The step on which RETURNED holds writes the pair of the entry state (R92). -/
theorem dutyStep_of_returned {w : Nat} {d m : BitVec w} {t : Bool} (h : returned d t m = true) :
    dutyStep d t m = (0#w, true) := by
  obtain ⟨hm, rfl, hd⟩ := returned_iff.mp h
  obtain ⟨hduty, hturn⟩ := dutyStep_down (m := m) hd.ge (hd.trans_le hm)
  rw [hd] at hduty
  exact Prod.ext (toNat_eq_zero_iff.mp hduty) (hturn.mpr hd)

/-- A poll writes GUARD to PHASE where it is GUARD already (R115, R116). -/
theorem exec_seqTickCs {s : State} (hphase : s.phase = 1#2) (hmode : s.mode = s.entry) (hentry : s.entry = 1#2) :
    exec .seqTickCs s = .next { s with ch := drive s.color s.maxl } :=
  exec_seqTickCs_eq_next.mpr ⟨⟨hphase, hmode, hentry⟩, by rw [← hphase]⟩

/-- A tick of PulseCycling that does not return to 0 keeps COLOR. -/
theorem exec_seqTickPc_not_returning {s : State} (hphase : s.phase = 1#2) (hmode : s.mode = s.entry)
    (hentry : s.entry = 2#2) (hreturns : s.rampReturns = false) :
    exec .seqTickPc s = .next { s with
      duty := s.rampStep.1, toAdd := s.rampStep.2, ch := drive s.color s.rampStep.1, phase := 2#2 } := by
  have hcolor : s.colorAfterPulse = s.color := if_neg (Bool.eq_false_iff.mp hreturns)
  exact exec_seqTickPc_eq_next.mpr ⟨⟨hphase, hmode, hentry⟩, by rw [hcolor]⟩

/-- The tick of PulseCycling that returns to 0 advances COLOR, and its drive is dark whatever the new colour. -/
theorem exec_seqTickPc_returning {s : State} (hphase : s.phase = 1#2) (hmode : s.mode = s.entry)
    (hentry : s.entry = 2#2) (hreturns : s.rampReturns = true) :
    exec .seqTickPc s = .next { s with
      duty := 0#s.params.dutyWidth, toAdd := true, color := advAuto s.color, ch := zeroAll s.params.dutyWidth,
      phase := 2#2 } := by
  have hstep : s.rampStep = (0#s.params.dutyWidth, true) := dutyStep_of_returned hreturns
  have hcolor : s.colorAfterPulse = advAuto s.color := if_pos hreturns
  exact exec_seqTickPc_eq_next.mpr ⟨⟨hphase, hmode, hentry⟩, by rw [hcolor, hstep, drive_zero]⟩

/-- Before the dwell is over, a poll of ConstantCycling drives the colour and changes nothing else. -/
theorem exec_seqTickCc_dwelling {s : State} (hphase : s.phase = 1#2) (hmode : s.mode = s.entry)
    (hentry : s.entry = 0#2) (hdwell : s.dwell.toNat < s.params.dwellTicks) :
    exec .seqTickCc s = .next { s with ch := drive s.color s.maxl } := by
  have hreached : ¬s.dwellReached = true := by simpa [State.dwellReached] using hdwell
  refine exec_seqTickCc_eq_next.mpr ⟨⟨hphase, hmode, hentry⟩, ?_⟩
  rw [State.colorAfterPoll, if_neg hreached, if_neg hreached, ← hphase]

/-- Once the dwell is over, a poll of ConstantCycling advances the colour, drives the new one and restarts the dwell. -/
theorem exec_seqTickCc_advancing {s : State} (hphase : s.phase = 1#2) (hmode : s.mode = s.entry)
    (hentry : s.entry = 0#2) (hdwell : s.params.dwellTicks ≤ s.dwell.toNat) :
    exec .seqTickCc s = .next { s with
      color := advAuto s.color, dwell := 0#s.params.dwellWidth, ch := drive (advAuto s.color) s.maxl } := by
  have hreached : s.dwellReached = true := decide_eq_true hdwell
  refine exec_seqTickCc_eq_next.mpr ⟨⟨hphase, hmode, hentry⟩, ?_⟩
  rw [State.colorAfterPoll, if_pos hreached, if_pos hreached, ← hphase]

/-- In GUARD with the mode unchanged and no autonomous advance due, SEQ is a tick that keeps COLOR and drives its lanes:
with the new duty in a pulse mode, with the maximum in a constant one (R103). -/
theorem take_seq_tick_keeping_color {s : State} (hphase : s.phase = 1#2) (hmode : s.mode = s.entry)
    (hreturns : s.rampReturns = false) (hdwell : s.dwellReached = false) :
    ∃ t, take .seq s = .next t ∧ t.color = s.color ∧
      t.ch = drive t.color (if s.entry = 2#2 ∨ s.entry = 3#2 then t.duty else t.maxl) := by
  rcases two_bits s.entry with hentry | hentry | hentry | hentry
  · have hbefore : s.dwell.toNat < s.params.dwellTicks := Nat.lt_of_not_le (of_decide_eq_false hdwell)
    have hpoll := exec_seqTickCc_dwelling hphase hmode hentry hbefore
    exact ⟨_, (take_seq_of_exec rfl hpoll).2, rfl, by rw [if_neg (by simp [hentry])]⟩
  · have hpoll := exec_seqTickCs hphase hmode hentry
    exact ⟨_, (take_seq_of_exec rfl hpoll).2, rfl, by rw [if_neg (by simp [hentry])]⟩
  · have htick := exec_seqTickPc_not_returning hphase hmode hentry hreturns
    exact ⟨_, (take_seq_of_exec rfl htick).2, rfl, by rw [if_pos (.inl hentry)]⟩
  · have htick := exec_seqTickPs_eq_next.mpr ⟨⟨hphase, hmode, hentry⟩, rfl⟩
    exact ⟨_, (take_seq_of_exec rfl htick).2, rfl, by rw [if_pos (.inr hentry)]⟩

/-! ## TMR (R118) -/

/-- R6's constraints one by one. -/
theorem params_wf_iff {p : Params} :
    p.wf = true ↔ 1 ≤ p.dutyWidth ∧ 1 ≤ p.dwellTicks ∧ p.dwellTicks < 2 ^ p.dwellWidth := by
  simp [Params.wf, and_assoc]

/-- DWELL saturates at DWELL_TICKS and does not wrap: its width holds DWELL_TICKS (R6, D33). -/
theorem State.dwellTick_toNat {s : State} (hwf : s.params.wf = true) :
    s.dwellTick.toNat = min (s.dwell.toNat + 1) s.params.dwellTicks := by
  obtain ⟨-, -, hfits⟩ := params_wf_iff.mp hwf
  rw [State.dwellTick, BitVec.toNat_ofNat, Nat.mod_eq_of_lt ((Nat.min_le_right _ _).trans_lt hfits)]

/-- A strobe in ConstantCycling's guard counts the dwell. -/
theorem exec_tmr_of_dwelling {s : State} (hphase : s.phase = 1#2) (hentry : s.entry = 0#2) :
    exec .tmr s = .next { s with dwell := s.dwellTick } := by
  rw [exec_tmr, State.strobe]
  simp [hphase, hentry]

/-- A strobe elsewhere has no effect. -/
theorem exec_tmr_idle {s : State} (hwait : s.phase ≠ 2#2) (hdwelling : ¬(s.phase = 1#2 ∧ s.entry = 0#2)) :
    exec .tmr s = .next s := by
  rw [exec_tmr, State.strobe, if_neg hwait, if_neg hdwelling]

/-! ## PHASE and ENTRY along a run without SEQ and RST (R25, R26) -/

/-- Only SEQ and RST write ENTRY. -/
theorem entry_of_take {op : Op} {s t : State} (hseq : op ≠ .seq) (hrst : op ≠ .rst) (h : take op s = .next t) :
    t.entry = s.entry := by
  by_contra hne
  obtain ⟨i, hi, hx⟩ := take_eq_next h
  obtain ⟨-, hentry, -⟩ := sequencerRegisterWriters i s t hx
  obtain rfl | rfl := hentry hne <;> cases hi
  · exact hseq rfl
  · exact hrst rfl

theorem entry_of_runOps {ops : List Op} (hseq : .seq ∉ ops) (hrst : .rst ∉ ops) {s u : State}
    (h : runOps ops s = some u) : u.entry = s.entry :=
  runOps_keeps (P := fun x => x.entry = s.entry)
    (fun _ ho _ _ ht hs => (entry_of_take (fun e => hseq (e ▸ ho)) (fun e => hrst (e ▸ ho)) ht).trans hs) h rfl

/-- Only SEQ, TMR and RST write PHASE. -/
theorem phase_of_take {op : Op} {s t : State} (hseq : op ≠ .seq) (htmr : op ≠ .tmr) (hrst : op ≠ .rst)
    (h : take op s = .next t) : t.phase = s.phase := by
  by_contra hne
  obtain ⟨i, hi, hx⟩ := take_eq_next h
  obtain ⟨hphase, -⟩ := sequencerRegisterWriters i s t hx
  obtain rfl | rfl | rfl | rfl | rfl | rfl := hphase hne <;> cases hi
  exacts [hseq rfl, hseq rfl, hseq rfl, hseq rfl, htmr rfl, hrst rfl]

/-- While a handler runs, TMR leaves PHASE at GUARD (R118). -/
theorem phase_of_take_tmr {s t : State} (hphase : s.phase = 1#2 ∨ s.phase = 2#2) (h : take .tmr s = .next t) :
    t.phase = 1#2 := by
  rw [take_tmr, exec_tmr] at h
  cases h
  rcases hphase with hphase | hphase <;> simp [State.strobe, hphase]

/-- While a handler runs without SEQ and RST, PHASE is GUARD from the first TMR on. -/
theorem phase_of_runOps {ops : List Op} (hseq : .seq ∉ ops) (hrst : .rst ∉ ops) {s u : State}
    (hphase : s.phase = 1#2 ∨ s.phase = 2#2) (h : runOps ops s = some u) :
    u.phase = if .tmr ∈ ops then 1#2 else s.phase := by
  induction ops generalizing s with
  | nil => cases h; rfl
  | cons op ops ih =>
    obtain ⟨t, ht, hrun⟩ := runOps_cons_eq_some h
    obtain ⟨hopSeq, hseq'⟩ := List.ne_and_not_mem_of_not_mem_cons hseq
    obtain ⟨hopRst, hrst'⟩ := List.ne_and_not_mem_of_not_mem_cons hrst
    by_cases htmr : op = .tmr
    · subst htmr
      have htphase := phase_of_take_tmr hphase ht
      rw [ih hseq' hrst' (.inl htphase) hrun, htphase, ite_self, if_pos List.mem_cons_self]
    · have htphase := phase_of_take hopSeq.symm htmr hopRst.symm ht
      simp [ih hseq' hrst' (htphase ▸ hphase) hrun, htphase, Ne.symm htmr]

/-! ## The dwell of ConstantCycling (R116, R118) -/

/-- ConstantCycling at its guard, its mode unchanged, with the parameters `p`, the colour `c` and the dwell at `n`. -/
structure Dwelling (p : Params) (c : BitVec 3) (n : Nat) (s : State) : Prop where
  phase  : s.phase = 1#2
  mode   : s.mode = 0#2
  entry  : s.entry = 0#2
  params : s.params = p
  color  : s.color = c
  dwell  : s.dwell.toNat = n

section
variable {p : Params} {c : BitVec 3} {n : Nat} {s : State} (h : Dwelling p c n s)
include h

theorem Dwelling.take_tmr (hwf : p.wf = true) :
    ∃ t, take .tmr s = .next t ∧ Dwelling p c (min (n + 1) p.dwellTicks) t := by
  obtain ⟨hphase, hmode, hentry, rfl, hcolor, rfl⟩ := h
  exact ⟨_, exec_tmr_of_dwelling hphase hentry, hphase, hmode, hentry, rfl, hcolor, State.dwellTick_toNat hwf⟩

theorem Dwelling.take_seq (hn : n < p.dwellTicks) : ∃ t, take .seq s = .next t ∧ Dwelling p c n t := by
  obtain ⟨hphase, hmode, hentry, rfl, hcolor, rfl⟩ := h
  have hpoll := exec_seqTickCc_dwelling hphase (hmode.trans hentry.symm) hentry hn
  exact ⟨_, (take_seq_of_exec rfl hpoll).2, hphase, hmode, hentry, rfl, hcolor, rfl⟩

theorem Dwelling.take_seq_advances (hn : p.dwellTicks ≤ n) :
    ∃ t, take .seq s = .next t ∧ Dwelling p (advAuto c) 0 t := by
  obtain ⟨hphase, hmode, hentry, rfl, rfl, rfl⟩ := h
  have hpoll := exec_seqTickCc_advancing hphase (hmode.trans hentry.symm) hentry hn
  exact ⟨_, (take_seq_of_exec rfl hpoll).2, hphase, hmode, hentry, rfl, rfl, BitVec.toNat_zero⟩

/-- However polls and strobes fall, the colour is held and the strobes are counted until the dwell is over. -/
theorem Dwelling.runOps_keeps_color {ops : List Op} (hwf : p.wf = true) (hops : ∀ op ∈ ops, op = .tmr ∨ op = .seq)
    (hlt : n + ops.count .tmr < p.dwellTicks) :
    ∃ u, runOps ops s = some u ∧ Dwelling p c (n + ops.count .tmr) u := by
  induction ops generalizing n s with
  | nil => exact ⟨s, rfl, h⟩
  | cons op ops ih =>
    obtain ⟨rfl | rfl, hrest⟩ := List.forall_mem_cons.mp hops
    · obtain ⟨t, ht, hdwell⟩ := h.take_tmr hwf
      rw [List.count_cons_self] at hlt ⊢
      rw [Nat.min_eq_left (by omega)] at hdwell
      rw [runOps_cons ht, ← Nat.add_assoc, Nat.add_right_comm]
      exact ih hdwell hrest (by omega)
    · obtain ⟨t, ht, hdwell⟩ := h.take_seq (by omega)
      rw [List.count_cons_of_ne (by decide)] at hlt ⊢
      rw [runOps_cons ht]
      exact ih hdwell hrest hlt

end

/-! ## The obligations -/

/-- Settles O6: outside WAIT SEQ's step is some arm's, and the arm that has a step is the one read from the code. -/
theorem seqHasExactlyOneArm : Obligations.SeqHasExactlyOneArm := by
  unfold Obligations.SeqHasExactlyOneArm
  refine fun s => ⟨fun hphase => ?_, fun hwait => ⟨noStep_take_seq hwait, fun j hj t ht => ?_⟩⟩
  · obtain ⟨t, ht⟩ := take_seq_runs hphase
    obtain ⟨i, hi, hx⟩ := take_eq_next ht
    exact ⟨i, t, hi, hx, ht, fun j u hj hu => seq_arm_unique hi hj hx hu⟩
  · exact noStep_take_seq hwait t (take_seq_of_exec hj ht).2

/-- Settles O22: what the other instructions write leaves the channels; the arms that write them have their step where
R62 selects them, and EXIT from a constant mode keeps them. -/
theorem channelOwnership : Obligations.ChannelOwnership := by
  unfold Obligations.ChannelOwnership
  rintro i s t h ⟨k, hk⟩
  cases i with
  | rst => exact .inl rfl
  | seqTickCc =>
    obtain ⟨⟨hphase, hmode, hentry⟩, -⟩ := exec_seqTickCc_eq_next.mp h
    exact .inr (.inl ⟨hphase, hmode, .inl ⟨rfl, hentry⟩⟩)
  | seqTickCs =>
    obtain ⟨⟨hphase, hmode, hentry⟩, -⟩ := exec_seqTickCs_eq_next.mp h
    exact .inr (.inl ⟨hphase, hmode, .inr (.inl ⟨rfl, hentry⟩)⟩)
  | seqTickPc =>
    obtain ⟨⟨hphase, hmode, hentry⟩, -⟩ := exec_seqTickPc_eq_next.mp h
    exact .inr (.inl ⟨hphase, hmode, .inr (.inr (.inl ⟨rfl, hentry⟩))⟩)
  | seqTickPs =>
    obtain ⟨⟨hphase, hmode, hentry⟩, -⟩ := exec_seqTickPs_eq_next.mp h
    exact .inr (.inl ⟨hphase, hmode, .inr (.inr (.inr ⟨rfl, hentry⟩))⟩)
  | seqExit =>
    obtain ⟨⟨hphase, hmode⟩, -⟩ := exec_seqExit_eq_next.mp h
    refine .inr (.inr ⟨hphase, hmode, rfl, ?_⟩)
    by_contra hconstant
    cases (exec_seqExit_constant hphase hmode hconstant).symm.trans h
    exact hk rfl
  | seqDispatch | seqBadphase | tmr | edm | edc | svm | svc | reservedZero | reservedHigh code =>
    obtain rfl := eq_apply_of_exec h
    exact absurd rfl hk

/-- Settles O41: the run keeps MODE and ENTRY apart, and its PHASE is GUARD exactly where it began there or had a TMR. -/
theorem modeChangeIsSeenAtTheNextSeq : Obligations.ModeChangeIsSeenAtTheNextSeq := by
  unfold Obligations.ModeChangeIsSeenAtTheNextSeq
  intro ops s u hmode hphase hops hrun
  have hseq : .seq ∉ ops := fun hmem => by simpa using hops _ hmem
  have hrst : .rst ∉ ops := fun hmem => by simpa using hops _ hmem
  have hsvm : .svm ∉ ops := fun hmem => by simpa using hops _ hmem
  have hmode' : u.mode ≠ u.entry := by
    rwa [mode_of_runOps hsvm hrst hrun, entry_of_runOps hseq hrst hrun]
  have hphase' := phase_of_runOps hseq hrst hphase hrun
  refine ⟨fun hguard => ?_, fun hwait htmr => noStep_take_seq ?_⟩
  · have hu : u.phase = 1#2 := by
      rw [hphase']
      exact ite_eq_left_iff.mpr hguard.resolve_right
    have hexit := exec_seqExit_eq_next.mpr ⟨⟨hu, hmode'⟩, rfl⟩
    exact ⟨takeCode_seq_of_exec rfl hexit, _, (take_seq_of_exec rfl hexit).2, rfl⟩
  · rw [hphase', if_neg htmr, hwait]

/-- Settles O42: SVC changes nothing that the tick after it is selected or held back by, and that tick drives the COLOR
it finds. -/
theorem colorChangeShowsAtTheNextTick : Obligations.ColorChangeShowsAtTheNextTick := by
  unfold Obligations.ColorChangeShowsAtTheNextTick
  intro s hphase hmode hpend hreturns hdwell
  have hsvc : take .svc s = .next (s.service .color) := take_svc_eq_next.mpr ⟨hpend, rfl⟩
  obtain ⟨t, ht, hcolor, hch⟩ := take_seq_tick_keeping_color (s := s.service .color) hphase hmode hreturns hdwell
  refine ⟨t, (runOps_cons hsvc).trans (runOps_cons ht), hcolor, fun k => ?_⟩
  rw [hch, drive_get, hcolor]
  rfl

/-- Settles O56: the dwell counts the strobes and holds the colour; the last strobe fills it, and the poll then advances. -/
theorem dwellHoldsTheColor : Obligations.DwellHoldsTheColor := by
  unfold Obligations.DwellHoldsTheColor
  intro ops s u hphase hmode hentry hdwell hwf hops
  have hstart : Dwelling s.params s.color 0 s := ⟨hphase, hmode, hentry, rfl, rfl, hdwell⟩
  refine ⟨fun hlt hrun => ?_, fun hcount => ?_⟩
  · obtain ⟨v, hv, hheld⟩ := hstart.runOps_keeps_color hwf hops (by omega)
    obtain rfl : v = u := Option.some.inj (hv.symm.trans hrun)
    exact ⟨hheld.color, hheld.dwell.trans (Nat.zero_add _)⟩
  · obtain ⟨-, hticks, -⟩ := params_wf_iff.mp hwf
    obtain ⟨v, hv, hheld⟩ := hstart.runOps_keeps_color hwf hops (by omega)
    obtain ⟨w, hw, hfull⟩ := hheld.take_tmr hwf
    obtain ⟨t, ht, hadvanced⟩ := hfull.take_seq_advances (by omega)
    refine ⟨t, ?_, hadvanced.color, ?_, hadvanced.dwell⟩
    · rw [runOps_append hv, runOps_cons hw, runOps_cons ht, runOps_nil]
    · rw [hadvanced.color]
      exact mt toNat_eq_zero_iff.mp (advAuto_ne s.color).1

/-- Settles O33: DISPATCH's step in the phase that selects it. -/
theorem dispatchEntersTheHandler : Obligations.DispatchEntersTheHandler := by
  unfold Obligations.DispatchEntersTheHandler
  intro s hphase
  have hx := exec_seqDispatch_eq_next.mpr ⟨hphase, rfl⟩
  exact ⟨takeCode_seq_of_exec rfl hx, hx⟩

/-- Settles O34: EXIT's step from a pulse mode and from a constant one, and its guard. -/
theorem exitCleansUpPulseModes : Obligations.ExitCleansUpPulseModes := by
  unfold Obligations.ExitCleansUpPulseModes
  refine fun s hphase => ⟨fun hmode => ⟨?_, exec_seqExit_pulse hphase hmode, fun hentry => ?_⟩, fun hmode t ht => ?_⟩
  · exact takeCode_seq_of_exec rfl (exec_seqExit_eq_next.mpr ⟨⟨hphase, hmode⟩, rfl⟩)
  · exact exec_seqExit_constant hphase hmode (by rcases hentry with hentry | hentry <;> simp [hentry])
  · obtain ⟨⟨-, hne⟩, -⟩ := exec_seqExit_eq_next.mp ht
    exact hne hmode

/-- Settles O35: the tick's step in the guard of PulseSingle. -/
theorem tickOfPulseSingle : Obligations.TickOfPulseSingle := by
  unfold Obligations.TickOfPulseSingle
  intro s hphase hmode hentry
  have hx := exec_seqTickPs_eq_next.mpr ⟨⟨hphase, hmode.trans hentry.symm, hentry⟩, rfl⟩
  exact ⟨takeCode_seq_of_exec rfl hx, hx⟩

/-- Settles O36: the tick's step in the guard of PulseCycling; where the ramp returns, the pair and so the drive are 0. -/
theorem tickOfPulseCycling : Obligations.TickOfPulseCycling := by
  unfold Obligations.TickOfPulseCycling
  intro s hphase hmode hentry
  have hguard : s.mode = s.entry := hmode.trans hentry.symm
  rw [← advAuto_eq]
  exact ⟨takeCode_seq_of_exec rfl (exec_seqTickPc_eq_next.mpr ⟨⟨hphase, hguard, hentry⟩, rfl⟩),
    exec_seqTickPc_not_returning hphase hguard hentry, exec_seqTickPc_returning hphase hguard hentry⟩

/-- Settles O37: the poll's step in the guard of ConstantSingle. -/
theorem pollOfConstantSingle : Obligations.PollOfConstantSingle := by
  unfold Obligations.PollOfConstantSingle
  intro s hphase hmode hentry
  have hx := exec_seqTickCs hphase (hmode.trans hentry.symm) hentry
  exact ⟨takeCode_seq_of_exec rfl hx, hx⟩

/-- Settles O38: the poll's step in the guard of ConstantCycling, before and after the dwell is over. -/
theorem pollOfConstantCycling : Obligations.PollOfConstantCycling := by
  unfold Obligations.PollOfConstantCycling
  intro s hphase hmode hentry
  have hguard : s.mode = s.entry := hmode.trans hentry.symm
  rw [← advAuto_eq]
  exact ⟨takeCode_seq_of_exec rfl (exec_seqTickCc_eq_next.mpr ⟨⟨hphase, hguard, hentry⟩, rfl⟩),
    exec_seqTickCc_dwelling hphase hguard hentry, exec_seqTickCc_advancing hphase hguard hentry⟩

/-- Settles O39: SEQ's step in the unused phase. -/
theorem badPhaseSetsFaulted : Obligations.BadPhaseSetsFaulted := by
  unfold Obligations.BadPhaseSetsFaulted
  intro s hphase
  have hx := exec_seqBadphase_eq_next.mpr ⟨hphase, rfl⟩
  exact ⟨takeCode_seq_of_exec rfl hx, hx⟩

/-- Settles O40: TMR's three cases; the count of the dwell saturates within its width. -/
theorem timerStrobe : Obligations.TimerStrobe := by
  unfold Obligations.TimerStrobe
  exact fun s => ⟨take_tmr s, take_tmr_of_wait, fun hphase hentry hwf =>
    ⟨s.dwellTick, State.dwellTick_toNat hwf, exec_tmr_of_dwelling hphase hentry⟩, exec_tmr_idle⟩

end Sys2Proof.Machine
end

section
/-!
PROOFS. Exceptions: a step has a next state, or the op in front of the trace is held (60_exceptions.md, R130).
-/
namespace Sys2Proof.Machine

/-- Only SEQ, SVM and SVC have a condition that can fail (R60, R130). -/
theorem seq_or_service_of_not_enabled {op : Op} {s : State} (h : s.enabled op = false) :
    op = .seq ∨ op = .svm ∨ op = .svc := by
  cases op with
  | seq => exact .inl rfl
  | svm => exact .inr (.inl rfl)
  | svc => exact .inr (.inr rfl)
  | rst | tmr | edm | edc => cases h

/-- A step stops only at an op in front of the trace that is not enabled: the free choice takes an enabled op, and a
reserved code is refused with a next state (R61, R69, R130). -/
theorem step_next_or_held (s : State) :
    (∃ t, step s = .next t) ∨
    ∃ op rest, s.trace = op.code :: rest ∧ s.enabled op = false ∧ step s = .fault (.held op (s.pos + 1)) := by
  cases htrace : s.trace with
  | nil =>
    obtain ⟨_, t, -, -, ht⟩ := freeStepTakesAnEnabledOp s htrace
    exact .inl ⟨t, ht⟩
  | cons code rest =>
    rcases step_cases s with ⟨op, hcode, hstep⟩ | ⟨-, hstep⟩
    · obtain rfl : code = op.code := by rwa [State.nextCode, htrace] at hcode
      rw [hstep]
      cases henabled : s.enabled op with
      | true => exact .inl (take_runs_of_enabled ((s.advance_enabled op).trans henabled))
      | false =>
        exact .inr ⟨op, rest, rfl, henabled, take_held_of_not_enabled ((s.advance_enabled op).trans henabled)⟩
    · exact .inl ⟨_, hstep⟩

/-- Settles O49: a step that has no next state is a hold, and only SEQ, SVM and SVC can be held. -/
theorem stepStopsOnlyWhereAnOpIsHeld : Obligations.StepStopsOnlyWhereAnOpIsHeld := by
  unfold Obligations.StepStopsOnlyWhereAnOpIsHeld
  intro s
  rcases step_next_or_held s with ⟨t, hstep⟩ | ⟨op, rest, htrace, hheld, hstep⟩ <;> rw [hstep]
  · exact ⟨nofun, nofun⟩
  · refine ⟨nofun, fun f hf => ?_⟩
    cases hf
    exact ⟨op, rest, rfl, seq_or_service_of_not_enabled hheld, hheld, htrace⟩

end Sys2Proof.Machine
end

section
/-!
PROOFS. Reset and hazards: what RST leaves and the two SEQ ops after it; the channels from an EXIT of a pulse mode on,
through the next DISPATCH (70_reset_and_hazards.md, R150, R151, R157; R38.9).
-/
namespace Sys2Proof.Machine

/-! ## The first ticks after RST (R151) -/

/-- RST leaves the phase in which SEQ is DISPATCH; what that writes after it is ConstantCycling's entry state. -/
theorem exec_seqDispatch_resetRegisters (s : State) :
    exec .seqDispatch s.resetRegisters = .next (s.resetRegisters.apply .seqDispatch) :=
  exec_seqDispatch_eq_next.mpr ⟨rfl, rfl⟩

/-- The poll after that finds the dwell at 0, so COLOR is still 1 and the drive is of red alone (R116). -/
theorem exec_seqTickCc_after_reset {s : State} (hwf : s.params.wf = true) :
    exec .seqTickCc (s.resetRegisters.apply .seqDispatch) =
      .next { s.resetRegisters.apply .seqDispatch with ch := drive 1#3 s.scaledMax } := by
  obtain ⟨-, hticks, -⟩ := params_wf_iff.mp hwf
  have hdwell : (s.resetRegisters.apply .seqDispatch).dwell.toNat < s.params.dwellTicks :=
    BitVec.toNat_zero.trans_lt hticks
  exact exec_seqTickCc_dwelling rfl rfl rfl hdwell

/-! ## The phase and the channels along a run without SEQ (R119, R157) -/

/-- From DISPATCH, only SEQ leads to another phase. -/
theorem phase_dispatch_of_take {op : Op} {s t : State} (hseq : op ≠ .seq) (h : take op s = .next t)
    (hphase : s.phase = 0#2) : t.phase = 0#2 := by
  by_cases hrst : op = .rst
  · subst hrst
    cases h
    rfl
  by_cases htmr : op = .tmr
  · subst htmr
    rw [take_tmr, exec_tmr_idle (by simp [hphase]) (by simp [hphase])] at h
    cases h
    exact hphase
  · rw [phase_of_take hseq htmr hrst h, hphase]

/-- Every channel is at the minimum. -/
def State.Dark (s : State) : Prop := ∀ k, (s.ch.get k).toNat = 0

/-- Only SEQ lights a channel: of the other ops RST alone writes the channels, and it zeroes them (R119, R150). -/
theorem State.Dark.of_take {op : Op} {s t : State} (hs : s.Dark) (hseq : op ≠ .seq) (h : take op s = .next t) :
    t.Dark := by
  intro k
  by_contra hlit
  obtain ⟨i, hi, hx⟩ := take_eq_next h
  obtain rfl | ⟨-, -, htick⟩ | ⟨-, -, rfl, -⟩ := channelOwnership i s t hx ⟨k, fun e => hlit (e.trans (hs k))⟩
  · cases hx
    simp at hlit
  · obtain ⟨rfl, -⟩ | ⟨rfl, -⟩ | ⟨rfl, -⟩ | ⟨rfl, -⟩ := htick <;> exact hseq (Option.some.inj hi).symm
  · exact hseq (Option.some.inj hi).symm

/-- A run without SEQ keeps the block between two handlers, and dark (R157). -/
theorem dispatch_dark_of_runOps {ops : List Op} {s u : State} (hseq : .seq ∉ ops) (h : runOps ops s = some u)
    (hs : s.phase = 0#2 ∧ s.Dark) : u.phase = 0#2 ∧ u.Dark :=
  runOps_keeps (P := fun x => x.phase = 0#2 ∧ x.Dark)
    (fun _ ho _ _ ht ⟨hphase, hdark⟩ =>
      have hne := ne_of_mem_of_not_mem ho hseq
      ⟨phase_dispatch_of_take hne ht hphase, hdark.of_take hne ht⟩) h hs

/-! ## The obligations -/

/-- Settles O9: RST's one effect, and the code that decodes to it whatever the control state. -/
theorem resetWritesEveryRegister : Obligations.ResetWritesEveryRegister := by
  unfold Obligations.ResetWritesEveryRegister
  exact fun s => ⟨take_rst s, exec_rst s⟩

/-- Settles O10: RST, the DISPATCH it leads to, and the poll that DISPATCH leads to, each with what it writes. -/
theorem firstTickAfterResetLightsRed : Obligations.FirstTickAfterResetLightsRed := by
  unfold Obligations.FirstTickAfterResetLightsRed
  intro s hwf
  have hdispatch := exec_seqDispatch_resetRegisters s
  have hpoll := exec_seqTickCc_after_reset hwf
  exact ⟨_, _, _, runOps_cons (take_rst s), rfl, rfl, rfl, rfl, rfl, takeCode_seq_of_exec rfl hdispatch,
    (take_seq_of_exec rfl hdispatch).2, rfl, takeCode_seq_of_exec rfl hpoll, (take_seq_of_exec rfl hpoll).2, rfl,
    rfl, BitVec.toNat_zero, BitVec.toNat_zero⟩

/-- Settles O43: EXIT zeroes the channels, only SEQ could light one or leave the phase, and the next SEQ is a DISPATCH,
which does not write them. -/
theorem exitDarkensUntilTheNextHandler : Obligations.ExitDarkensUntilTheNextHandler := by
  unfold Obligations.ExitDarkensUntilTheNextHandler
  intro ops s u hphase hmode hentry hseq hrun
  have hexit := (take_seq_of_exec rfl (exec_seqExit_pulse hphase hmode hentry)).2
  rw [runOps_cons hexit] at hrun
  obtain ⟨huphase, hudark⟩ := dispatch_dark_of_runOps hseq hrun ⟨rfl, fun k => by simp⟩
  have hdispatch := exec_seqDispatch_eq_next.mpr ⟨huphase, rfl⟩
  exact ⟨huphase, hudark, _, (take_seq_of_exec rfl hdispatch).2, rfl, hudark⟩

end Sys2Proof.Machine
end

section
/-!
PROOFS. Whole runs: under R159's fairness SEQ is taken again and again, so a changed mode is seen and ConstantCycling
advances for ever; PulseCycling's ticks counted from the place in its period, on one schedule and on every fair one
(70_reset_and_hazards.md, R159 to R161).
-/
namespace Sys2Proof.Machine

/-! ## Fairness (R159) -/

/-- What holds until `Q` does, and turns into `Q` with an op that is taken again and again, leads to `Q`. -/
theorem exists_of_until {P Q : Nat → Prop} {op : Nat → Op} {o : Op} (hagain : ∀ n, ∃ m, n ≤ m ∧ op m = o) {n : Nat}
    (hP : P n) (hop : ∀ m, n ≤ m → P m → op m = o → Q m)
    (hother : ∀ m, n ≤ m → P m → op m ≠ o → Q m ∨ P (m + 1)) : ∃ m, n ≤ m ∧ Q m := by
  by_contra hnever
  push Not at hnever
  have hne : ∀ m, n ≤ m → P m → op m ≠ o := fun m hm hPm ho => hnever m hm (hop m hm hPm ho)
  have hP' : ∀ m, n ≤ m → P m :=
    Nat.le_induction hP fun m hm ih => (hother m hm ih (hne m hm ih)).resolve_left (hnever m hm)
  obtain ⟨k, hk, ho⟩ := hagain n
  exact hne k hk (hP' k hk) ho

/-- Only SEQ leads to a WAIT. -/
theorem not_wait_of_take {op : Op} {s t : State} (hseq : op ≠ .seq) (h : take op s = .next t) (hs : s.phase ≠ 2#2) :
    t.phase ≠ 2#2 := by
  by_cases htmr : op = .tmr
  · exact take_tmr_ends_wait (htmr ▸ h)
  by_cases hrst : op = .rst
  · subst hrst
    cases h
    simp
  · rwa [phase_of_take hseq htmr hrst h]

/-- In a fair run SEQ is taken again and again: a TMR ends any WAIT, and without SEQ there is no new one to hold it. -/
theorem FairRun.seq_again {st : Nat → State} {op : Nat → Op} (h : FairRun st op) (n : Nat) :
    ∃ m, n ≤ m ∧ op m = .seq := by
  by_contra hnever
  push Not at hnever
  obtain ⟨k, hk, htmr⟩ := h.tmr n
  have hwait : ∀ m, k + 1 ≤ m → (st m).phase ≠ 2#2 :=
    Nat.le_induction (take_tmr_ends_wait (htmr ▸ h.run k)) fun m hm ih =>
      not_wait_of_take (hnever m (by omega)) (h.run m) ih
  obtain ⟨m, hm, hseq⟩ := h.seq (k + 1) fun m hm => (st m).enabled_seq.mpr (hwait m hm)
  exact hnever m (by omega) hseq

/-! ## A running handler (R12, R120) -/

/-- While a handler runs, SEQ has its step in GUARD only. -/
theorem guard_of_take_seq {s t : State} (hphase : s.phase = 1#2 ∨ s.phase = 2#2) (h : take .seq s = .next t) :
    s.phase = 1#2 := hphase.resolve_right (s.enabled_seq.mp (enabled_of_take h))

/-- Only SEQ and RST end a handler's run. -/
theorem running_of_take {op : Op} {s t : State} (hseq : op ≠ .seq) (hrst : op ≠ .rst) (h : take op s = .next t)
    (hphase : s.phase = 1#2 ∨ s.phase = 2#2) : t.phase = 1#2 ∨ t.phase = 2#2 := by
  by_cases htmr : op = .tmr
  · exact .inl (phase_of_take_tmr hphase (htmr ▸ h))
  · rwa [phase_of_take hseq htmr hrst h]

/-- A handler runs whose mode has changed: the next SEQ is to leave it. -/
structure State.ExitDue (s : State) : Prop where
  running : s.phase = 1#2 ∨ s.phase = 2#2
  changed : s.mode ≠ s.entry

theorem State.ExitDue.take_seq {s t : State} (hs : s.ExitDue) (h : take .seq s = .next t) :
    take .seq s = exec .seqExit s ∧ t.phase = 0#2 := by
  have hexit := exec_seqExit_eq_next.mpr ⟨⟨guard_of_take_seq hs.running h, hs.changed⟩, rfl⟩
  cases (take_seq_of_exec rfl hexit).2.symm.trans h
  exact ⟨takeCode_seq_of_exec rfl hexit, rfl⟩

/-- An op that is not SEQ leaves the exit due, but for RST and an SVM that brings MODE back. -/
theorem State.ExitDue.take_other {op : Op} {s t : State} (hs : s.ExitDue) (hseq : op ≠ .seq)
    (h : take op s = .next t) : (op = .rst ∨ (op = .svm ∧ t.mode = t.entry)) ∨ t.ExitDue := by
  by_cases hrst : op = .rst
  · exact .inl (.inl hrst)
  have hrunning := running_of_take hseq hrst h hs.running
  by_cases hmode : t.mode = t.entry
  · by_cases hsvm : op = .svm
    · exact .inl (.inr ⟨hsvm, hmode⟩)
    · rw [mode_of_take hsvm hrst h, entry_of_take hseq hrst h] at hmode
      exact absurd hmode hs.changed
  · exact .inr ⟨hrunning, hmode⟩

/-! ## The dwell over a fair run (R116, R161) -/

/-- What some step of an op has, its step has: an op has one next state. -/
theorem of_take_eq_next {P : State → Prop} {op : Op} {s t : State} (hex : ∃ u, take op s = .next u ∧ P u)
    (h : take op s = .next t) : P t := by
  obtain ⟨u, hu, hPu⟩ := hex
  cases hu.symm.trans h
  exact hPu

/-- ConstantCycling at its guard, whatever its colour and its dwell. -/
def State.Cycling (p : Params) (s : State) : Prop := Dwelling p s.color s.dwell.toNat s

theorem Dwelling.cycling {p : Params} {c : BitVec 3} {n : Nat} {s : State} (h : Dwelling p c n s) : s.Cycling p := by
  obtain ⟨hphase, hmode, hentry, hparams, rfl, rfl⟩ := h
  exact ⟨hphase, hmode, hentry, hparams, rfl, rfl⟩

/-- Polls and strobes keep ConstantCycling at its guard. -/
theorem State.Cycling.of_take {p : Params} {op : Op} {s t : State} (hs : s.Cycling p) (hwf : p.wf = true)
    (hop : op = .seq ∨ op = .tmr) (h : take op s = .next t) : t.Cycling p := by
  obtain rfl | rfl := hop
  · rcases lt_or_ge s.dwell.toNat p.dwellTicks with hlt | hge
    · exact (of_take_eq_next (hs.take_seq hlt) h).cycling
    · exact (of_take_eq_next (hs.take_seq_advances hge) h).cycling
  · exact (of_take_eq_next (hs.take_tmr hwf) h).cycling

/-- A fair run in which ConstantCycling polls and counts undisturbed from `n` on. -/
structure CyclingRun (p : Params) (st : Nat → State) (op : Nat → Op) (n : Nat) : Prop where
  fair : FairRun st op
  wf : p.wf = true
  ops : ∀ m, n ≤ m → op m = .seq ∨ op m = .tmr
  cycling : ∀ m, n ≤ m → (st m).Cycling p

/-- The op at a point of a run is a poll that finds the dwell over. -/
def AdvancingPoll (p : Params) (st : Nat → State) (op : Nat → Op) (m : Nat) : Prop :=
  op m = .seq ∧ p.dwellTicks ≤ (st m).dwell.toNat

section
variable {p : Params} {st : Nat → State} {op : Nat → Op} {n : Nat} (h : CyclingRun p st op n)
include h

theorem CyclingRun.dwell_of_tmr {m : Nat} (hm : n ≤ m) (htmr : op m = .tmr) :
    (st (m + 1)).dwell.toNat = min ((st m).dwell.toNat + 1) p.dwellTicks :=
  (of_take_eq_next ((h.cycling m hm).take_tmr h.wf) (htmr ▸ h.fair.run m)).dwell

theorem CyclingRun.dwell_of_poll {m : Nat} (hm : n ≤ m) (hseq : op m = .seq)
    (hlt : (st m).dwell.toNat < p.dwellTicks) : (st (m + 1)).dwell.toNat = (st m).dwell.toNat :=
  (of_take_eq_next ((h.cycling m hm).take_seq hlt) (hseq ▸ h.fair.run m)).dwell

/-- Such a poll advances COLOR (R116). -/
theorem CyclingRun.color_of_advancingPoll {m : Nat} (hm : n ≤ m) (hpoll : AdvancingPoll p st op m) :
    (st (m + 1)).color = advAuto (st m).color :=
  (of_take_eq_next ((h.cycling m hm).take_seq_advances hpoll.2) (hpoll.1 ▸ h.fair.run m)).color

/-- A dwell of up to DWELL_TICKS is kept but by a poll that finds the dwell over. -/
theorem CyclingRun.dwell_kept {m d : Nat} (hm : n ≤ m) (hd : d ≤ p.dwellTicks) (hdm : d ≤ (st m).dwell.toNat) :
    AdvancingPoll p st op m ∨ d ≤ (st (m + 1)).dwell.toNat := by
  rcases h.ops m hm with hseq | htmr
  · rcases lt_or_ge (st m).dwell.toNat p.dwellTicks with hlt | hge
    · exact .inr (by rwa [h.dwell_of_poll hm hseq hlt])
    · exact .inl ⟨hseq, hge⟩
  · exact .inr (by rw [h.dwell_of_tmr hm htmr]; omega)

/-- Strobes come again and again, so the dwell reaches every value up to DWELL_TICKS, unless an advance restarts it. -/
theorem CyclingRun.dwell_reaches {k d : Nat} (hk : n ≤ k) (hd : d ≤ p.dwellTicks) :
    ∃ m, k ≤ m ∧ (AdvancingPoll p st op m ∨ d ≤ (st m).dwell.toNat) := by
  induction d with
  | zero => exact ⟨k, le_rfl, .inr (Nat.zero_le _)⟩
  | succ d ih =>
    obtain ⟨m, hm, hpoll | hdm⟩ := ih (by omega)
    · exact ⟨m, hm, .inl hpoll⟩
    obtain ⟨j, hj, hpoll | hdj⟩ := exists_of_until (P := fun j => d ≤ (st j).dwell.toNat)
      (Q := fun j => AdvancingPoll p st op j ∨ d + 1 ≤ (st (j + 1)).dwell.toNat) h.fair.tmr hdm
      (fun j hj hdj htmr => .inr (by rw [h.dwell_of_tmr (by omega) htmr]; omega))
      (fun j hj hdj _ => (h.dwell_kept (by omega) (by omega) hdj).imp_left .inl)
    · exact ⟨j, by omega, .inl hpoll⟩
    · exact ⟨j + 1, by omega, .inr hdj⟩

/-- A poll finds the dwell over again and again: once the dwell is full it stays so until the next poll. -/
theorem CyclingRun.advances_again {k : Nat} (hk : n ≤ k) : ∃ m, k ≤ m ∧ AdvancingPoll p st op m := by
  obtain ⟨m, hm, hpoll | hfull⟩ := h.dwell_reaches hk le_rfl
  · exact ⟨m, hm, hpoll⟩
  obtain ⟨j, hj, hpoll⟩ := exists_of_until (P := fun j => p.dwellTicks ≤ (st j).dwell.toNat) h.fair.seq_again hfull
    (fun _ _ hfull hseq => ⟨hseq, hfull⟩) (fun j hj hfull _ => h.dwell_kept (by omega) le_rfl hfull)
  exact ⟨j, by omega, hpoll⟩

end

/-! ## The ticks of PulseCycling, counted (R94, R114) -/

/-- PulseCycling with the maximum `M` and its mode unchanged, `n` ticks after the start of a period in which the colour
was `c`. -/
structure Pulsing (M : Nat) (c : BitVec 3) (n : Nat) (s : State) : Prop where
  running  : s.phase = 1#2 ∨ s.phase = 2#2
  mode     : s.mode = 2#2
  entry    : s.entry = 2#2
  maxl     : s.maxl.toNat = M
  onRamp   : OnRamp s.duty s.toAdd s.maxl
  position : rampPosition s.duty s.toAdd s.maxl = n % (2 * M)
  color    : s.color = advAuto^[n / (2 * M)] c

/-- A pair on the ramp is in its period. -/
theorem pulsing_of_onRamp {s : State} (hrunning : s.phase = 1#2 ∨ s.phase = 2#2) (hmode : s.mode = 2#2)
    (hentry : s.entry = 2#2) (hramp : OnRamp s.duty s.toAdd s.maxl) :
    Pulsing s.maxl.toNat s.color (rampPosition s.duty s.toAdd s.maxl) s :=
  ⟨hrunning, hmode, hentry, rfl, hramp, (Nat.mod_eq_of_lt hramp.rampPosition_lt).symm,
    by rw [Nat.div_eq_of_lt hramp.rampPosition_lt, Function.iterate_zero, id]⟩

section
variable {M n : Nat} {c : BitVec 3} {s : State} (h : Pulsing M c n s)
include h

theorem Pulsing.duty_toNat : s.duty.toNat = triangle M n := by
  rw [h.onRamp.toNat_eq_triangle, h.position, h.maxl, triangle, Nat.mod_mod, triangle]

/-- The ramp returns with the last tick of a period. -/
theorem Pulsing.returns_iff : s.rampReturns = true ↔ 2 * M ∣ n + 1 := by
  rw [State.rampReturns, h.onRamp.returned_iff_rampPosition_step, h.onRamp.rampPosition_step, h.position, h.maxl,
    Nat.mod_add_mod, Nat.dvd_iff_mod_eq_zero]

/-- A tick advances COLOR exactly where it ends a period (R114). -/
theorem Pulsing.colorAfterTick : s.colorAfterTick = advAuto^[(n + 1) / (2 * M)] c := by
  rw [State.colorAfterTick, if_pos h.entry, State.colorAfterPulse, Nat.succ_div]
  by_cases hend : 2 * M ∣ n + 1
  · rw [if_pos (h.returns_iff.mpr hend), if_pos hend, Function.iterate_succ_apply', h.color]
  · rw [if_neg (mt h.returns_iff.mp hend), if_neg hend, h.color, Nat.add_zero]

theorem Pulsing.withPhase {q : BitVec 2} (hq : q = 1#2 ∨ q = 2#2) : Pulsing M c n { s with phase := q } :=
  { h with running := hq }

/-- A pulse is one tick more. -/
theorem Pulsing.pulse : Pulsing M c (n + 1) s.pulse where
  running  := h.running
  mode     := h.mode
  entry    := h.entry
  maxl     := h.maxl
  onRamp   := h.onRamp.step
  position := h.onRamp.rampPosition_step.trans (by rw [h.position, h.maxl, Nat.mod_add_mod])
  color    := h.colorAfterTick

theorem Pulsing.pulse_iterate (k : Nat) : Pulsing M c (n + k) (State.pulse^[k] s) := by
  induction k with
  | zero => exact h
  | succ k ih =>
    rw [Function.iterate_succ_apply']
    exact ih.pulse

theorem Pulsing.take_seq {t : State} (ht : take .seq s = .next t) : Pulsing M c (n + 1) t := by
  have hready : s.PulseReady := ⟨guard_of_take_seq h.running ht, h.mode.trans h.entry.symm, .inl h.entry⟩
  cases hready.take_seq.symm.trans ht
  exact h.pulse.withPhase (.inr rfl)

theorem Pulsing.take_tmr {t : State} (ht : take .tmr s = .next t) : Pulsing M c n t := by
  obtain hguard | hwait := h.running
  · cases (exec_tmr_idle (by simp [hguard]) (by simp [h.entry])).symm.trans ht
    exact h
  · cases (take_tmr_of_wait hwait).symm.trans ht
    exact h.withPhase (.inl rfl)

/-- Every SEQ is a tick. -/
theorem Pulsing.seq_is_tick {t : State} (ht : take .seq s = .next t) : take .seq s = exec .seqTickPc s :=
  takeCode_seq_of_exec rfl (exec_seqTickPc_eq_next.mpr
    ⟨⟨guard_of_take_seq h.running ht, h.mode.trans h.entry.symm, h.entry⟩, rfl⟩)

end

/-- However SEQ and TMR fall in a run, the ticks are counted. -/
theorem IsRun.pulsing {st : Nat → State} {op : Nat → Op} (hrun : IsRun st op) {M r n : Nat} {c : BitVec 3}
    (h : Pulsing M c r (st n)) (hops : ∀ m, n ≤ m → op m = .seq ∨ op m = .tmr) (k : Nat) :
    Pulsing M c (r + seqCount op n k) (st (n + k)) := by
  induction k with
  | zero => exact h
  | succ k ih =>
    have hstep := hrun (n + k)
    rw [seqCount]
    rcases hops (n + k) (by omega) with hop | hop <;> rw [hop] at hstep
    · rw [if_pos hop]
      exact ih.take_seq hstep
    · rw [if_neg (by simp [hop])]
      exact ih.take_tmr hstep

theorem seqCount_eq_count (op : Nat → Op) (n k : Nat) : seqCount op n k = Nat.count (fun i => op (n + i) = .seq) k := by
  induction k with
  | zero => rfl
  | succ k ih => rw [seqCount, Nat.count_succ, ih]

/-- If SEQ is taken again and again, every number of them is reached. -/
theorem exists_seqCount_eq {op : Nat → Op} (hagain : ∀ n, ∃ m, n ≤ m ∧ op m = .seq) (n j : Nat) :
    ∃ k, seqCount op n k = j := by
  have hinf : {i | op (n + i) = .seq}.Infinite := by
    rw [← Nat.frequently_atTop_iff_infinite, Filter.frequently_atTop]
    intro a
    obtain ⟨m, hm, hseq⟩ := hagain (n + a)
    exact ⟨m - n, by omega, by rwa [Nat.add_sub_cancel' (by omega)]⟩
  exact ⟨_, (seqCount_eq_count op n _).trans (Nat.count_nth_of_infinite hinf j)⟩

/-! ## The obligations -/

/-- Settles O57: the exit, or the DISPATCH, stays due until one of the ops that are named comes, and SEQ comes. -/
theorem fairRunsObserveAModeChange : Obligations.FairRunsObserveAModeChange := by
  unfold Obligations.FairRunsObserveAModeChange
  refine fun st op n hfair => ⟨fun hrunning hchanged => ?_, fun hphase => ?_⟩
  · refine exists_of_until (P := fun m => (st m).ExitDue) hfair.seq_again ⟨hrunning, hchanged⟩
      (fun m _ hdue hseq => .inl ⟨hseq, hdue.take_seq (hseq ▸ hfair.run m)⟩)
      (fun m _ hdue hne => (hdue.take_other hne (hfair.run m)).imp_left .inr)
  · refine exists_of_until (P := fun m => (st m).phase = 0#2) hfair.seq_again hphase
      (fun m _ hphase hseq => ?_) (fun m _ hphase hne => .inr (phase_dispatch_of_take hne (hfair.run m) hphase))
    have hdispatch := exec_seqDispatch_eq_next.mpr ⟨hphase, rfl⟩
    exact .inl ⟨hseq, takeCode_seq_of_exec rfl hdispatch, of_take_eq_next (P := fun t => t.mode = t.entry)
      ⟨_, (take_seq_of_exec rfl hdispatch).2, rfl⟩ (hseq ▸ hfair.run m)⟩

/-- Settles O58: strobes fill the dwell, and the poll that then comes advances. -/
theorem fairConstantCyclingAdvancesForever : Obligations.FairConstantCyclingAdvancesForever := by
  unfold Obligations.FairConstantCyclingAdvancesForever
  intro st op n hfair hwf hphase hmode hentry hops k hk
  have hcycling : ∀ m, n ≤ m → (st m).Cycling (st n).params :=
    Nat.le_induction ⟨hphase, hmode, hentry, rfl, rfl, rfl⟩ fun m hm ih =>
      ih.of_take hwf (hops m hm) (hfair.run m)
  have hrun : CyclingRun (st n).params st op n := ⟨hfair, hwf, hops, hcycling⟩
  obtain ⟨m, hm, hpoll⟩ := hrun.advances_again hk
  obtain ⟨hlit, hne⟩ := advAuto_ne (st m).color
  have hcolor := hrun.color_of_advancingPoll (hk.trans hm) hpoll
  exact ⟨m, hm, hpoll.1, hcolor, hcolor ▸ hne, hcolor ▸ mt toNat_eq_zero_iff.mp hlit⟩

/-- Settles O59: every op of the run counts its tick, and ticks never end. -/
theorem fairPulseCyclingAdvancesOncePerPeriod : Obligations.FairPulseCyclingAdvancesOncePerPeriod := by
  unfold Obligations.FairPulseCyclingAdvancesOncePerPeriod
  intro st op n hfair hrunning hmode hentry _ hramp hops
  refine ⟨fun k => ?_, exists_seqCount_eq hfair.seq_again n⟩
  have hpulsing := hfair.run.pulsing (pulsing_of_onRamp hrunning hmode hentry hramp) hops k
  exact ⟨fun hseq => hpulsing.seq_is_tick (hseq ▸ hfair.run (n + k)), hpulsing.color, hpulsing.duty_toNat⟩

/-- Settles O55: the entry state is the first place of a period, and each pulse is one tick. -/
theorem pulseCyclingAdvancesOncePerPeriod : Obligations.PulseCyclingAdvancesOncePerPeriod := by
  unfold Obligations.PulseCyclingAdvancesOncePerPeriod
  intro n s hphase hmode hentry hduty hrising hm
  have hready : s.PulseReady := ⟨hphase, hmode.trans hentry.symm, .inl hentry⟩
  have hramp : OnRamp s.duty s.toAdd s.maxl := .inl ⟨hrising, by omega⟩
  have hpulses := (pulsing_of_onRamp (.inl hphase) hmode hentry hramp).pulse_iterate n
  rw [hramp.rampPosition_eq_zero.mpr ⟨hduty, hrising⟩, Nat.zero_add] at hpulses
  have hend : (State.pulse^[n] s).PulseReady :=
    Function.Iterate.rec State.PulseReady hready (fun _ hs => hs.withPulse _ _) n
  exact ⟨_, hready.runOps_pulses n, hpulses.color, hpulses.duty_toNat, hend.phase, hpulses.mode, hpulses.entry⟩

end Sys2Proof.Machine
end
